-- ==== Sys2Proof/Word.lean ====
section
/-! DEFINITION. The plainest types of the machine: a bus bit and a bus byte. -/

namespace Sys2Proof

/-- A line value or a data bit: `true` is 1 (released, high), `false` is 0 (driven low). R11, R22. -/
abbrev Bit := Bool

/-- A bus byte, bit 7 first on the wire. R9, R63. -/
abbrev Byte := BitVec 8

end Sys2Proof
end

