-- ==== Sys2Proof/Syntax.lean ====
section
/-! DEFINITION. The three formats of R80 and the instructions of `opcode_table.json`, one constructor a row. -/

namespace Sys2Proof

/-- The transport phase: the ten values of R24 and R86. It is a closed enumeration, since a reserved code never
enters a field (R97). -/
inductive Phase where
  | idle | start | addressW | registerSelect | writeData | restart | addressR | read | stop | stopFail
deriving DecidableEq, Repr

/-- Where in a transaction's byte stream (R101) a byte stands: that, and not a bit of the byte, says which of the
table's BUS8 rows it is. DESIGN CHOICE (log 5). -/
inductive BytePos where
  | address | register | command | data
deriving DecidableEq, Repr

/-- One word in one of the three formats of R80. -/
inductive Word where
  /-- An operation word of R90. -/
  | opw24 (w : BitVec 24)
  /-- A byte on the data line, at its place in the transaction. -/
  | bus8 (pos : BytePos) (b : Byte)
  /-- The acknowledge slot of R84. -/
  | ack1 (v : Bit)
deriving DecidableEq, Repr

/-- The rows of the opcode table. The first eleven are the operations of R90; the others are the bus patterns of R81 to
R85, read as the engine moving that pattern over the bus (DESIGN CHOICE, log 4). -/
inductive Instr where
  | beginBus
  | start
  | stop
  | wload (byte : Byte) (succ err : Phase)
  | wstep
  | rload (sendNack : Bool) (succ : Phase)
  | rstep
  | astart
  | seqstep
  | compensate
  | acquire
  | addrW (a : BitVec 7)
  | addrR (a : BitVec 7)
  | regSelect (r : Byte)
  | cmdTemp
  | cmdPres (o : BitVec 2)
  | data (d : Byte)
  | ack
  | nack
deriving DecidableEq, Repr

end Sys2Proof
end

