-- ==== Sys2Proof/Decode.lean ====
section
/-! DEFINITION. Decoding and encoding: the Phase codes of R86, the operation words of R90 to R93 and R96, the bus bytes
of R81 to R85, and the opcode table's own numbering of a row's bits. -/

namespace Sys2Proof

/-- Why a word spells no instruction. All but `notACommandByte` are the cases of R96. -/
inductive DecodeError where
  /-- The opcode is 0x0 or 0xC to 0xF. -/
  | reservedOpcode
  /-- A bit that R91 to R93 require to be 0 is 1. -/
  | reservedBitSet
  /-- A `succ` or `err` field holds a code 10 to 15. -/
  | reservedPhase
  /-- A byte at the command place matches neither command pattern of R83. -/
  | notACommandByte
deriving DecidableEq, Repr

/-- The 4-bit code of a phase (R86). -/
def Phase.code : Phase → BitVec 4
  | .idle => 0
  | .start => 1
  | .addressW => 2
  | .registerSelect => 3
  | .writeData => 4
  | .restart => 5
  | .addressR => 6
  | .read => 7
  | .stop => 8
  | .stopFail => 9

/-- The phase a 4-bit code names, none for the reserved codes 10 to 15 (R86). -/
def phaseOfCode (c : BitVec 4) : Option Phase :=
  match c.toNat with
  | 0 => some .idle
  | 1 => some .start
  | 2 => some .addressW
  | 3 => some .registerSelect
  | 4 => some .writeData
  | 5 => some .restart
  | 6 => some .addressR
  | 7 => some .read
  | 8 => some .stop
  | 9 => some .stopFail
  | _ => none

/-- The fields of an operation word (R90). -/
def opcField (w : BitVec 24) : BitVec 4 := w.extractLsb' 20 4
def succField (w : BitVec 24) : BitVec 4 := w.extractLsb' 16 4
def errField (w : BitVec 24) : BitVec 4 := w.extractLsb' 12 4
def kField (w : BitVec 24) : Bool := w.getLsbD 8
def immField (w : BitVec 24) : Byte := w.extractLsb' 0 8

/-- An operation without operands: bits [19:0] must be 0 (R93). -/
def decodePlain (w : BitVec 24) (i : Instr) : Except DecodeError Instr :=
  if w.extractLsb' 0 20 = 0 then .ok i else .error .reservedBitSet

/-- WLOAD's operands (R91): bits [11:8] must be 0 and both phases must be legal. -/
def decodeWload (w : BitVec 24) : Except DecodeError Instr :=
  if w.extractLsb' 8 4 ≠ 0 then .error .reservedBitSet
  else match phaseOfCode (succField w), phaseOfCode (errField w) with
    | some succ, some err => .ok (.wload (immField w) succ err)
    | _, _ => .error .reservedPhase

/-- RLOAD's operands (R92): bits [15:9] and [7:0] must be 0 and the phase must be legal. -/
def decodeRload (w : BitVec 24) : Except DecodeError Instr :=
  if w.extractLsb' 9 7 ≠ 0 ∨ immField w ≠ 0 then .error .reservedBitSet
  else match phaseOfCode (succField w) with
    | some succ => .ok (.rload (kField w) succ)
    | none => .error .reservedPhase

/-- The operation an `OPW24` word names (R90), refused as R96 says. -/
def decodeOp (w : BitVec 24) : Except DecodeError Instr :=
  match (opcField w).toNat with
  | 0x1 => decodePlain w .beginBus
  | 0x2 => decodePlain w .start
  | 0x3 => decodePlain w .stop
  | 0x4 => decodeWload w
  | 0x5 => decodePlain w .wstep
  | 0x6 => decodeRload w
  | 0x7 => decodePlain w .rstep
  | 0x8 => decodePlain w .astart
  | 0x9 => decodePlain w .seqstep
  | 0xA => decodePlain w .compensate
  | 0xB => decodePlain w .acquire
  | _ => .error .reservedOpcode

/-- The command rows' patterns (R83): 00101110, and oo110100. They are the table's, whatever the configuration's command bytes are
(DESIGN CHOICE, log 21). -/
def decodeCommand (b : Byte) : Except DecodeError Instr :=
  if b = 0x2E then .ok .cmdTemp
  else if b.extractLsb' 0 6 = 0x34 then .ok (.cmdPres (b.extractLsb' 6 2))
  else .error .notACommandByte

/-- The row a bus byte belongs to, by its place in the transaction (R81 to R83, R85, R101; log 5). -/
def decodeBus (pos : BytePos) (b : Byte) : Except DecodeError Instr :=
  match pos with
  | .address => if b.getLsbD 0 then .ok (.addrR (b.extractLsb' 1 7)) else .ok (.addrW (b.extractLsb' 1 7))
  | .register => .ok (.regSelect b)
  | .command => decodeCommand b
  | .data => .ok (.data b)

/-- The instruction a word spells, or why it spells none. -/
def decode : Word → Except DecodeError Instr
  | .opw24 w => decodeOp w
  | .bus8 pos b => decodeBus pos b
  | .ack1 v => .ok (if v then .nack else .ack)

/-- Assembling an operation word from its fields (R90): opc, succ, err, the three reserved bits, k, imm8. -/
def opWord (opc succ err : BitVec 4) (k : Bool) (imm : Byte) : BitVec 24 :=
  opc ++ succ ++ err ++ (0 : BitVec 3) ++ BitVec.ofBool k ++ imm

/-- A word without operands (R93). -/
def plainWord (opc : BitVec 4) : BitVec 24 := opWord opc 0 0 false 0

/-- The address byte (R81): the 7-bit address shifted left one, with the read or write bit below it. -/
def addressByte (a : BitVec 7) (rw : Bool) : Byte := a ++ BitVec.ofBool rw

/-- The pressure command row's byte (R83): oo110100. -/
def presByte (o : BitVec 2) : Byte := o ++ (0x34 : BitVec 6)

/-- The word of an instruction, from the same tables (R81 to R85, R90 to R93). -/
def encode : Instr → Word
  | .beginBus => .opw24 (plainWord 0x1)
  | .start => .opw24 (plainWord 0x2)
  | .stop => .opw24 (plainWord 0x3)
  | .wload byte succ err => .opw24 (opWord 0x4 succ.code err.code false byte)
  | .wstep => .opw24 (plainWord 0x5)
  | .rload sendNack succ => .opw24 (opWord 0x6 succ.code 0 sendNack 0)
  | .rstep => .opw24 (plainWord 0x7)
  | .astart => .opw24 (plainWord 0x8)
  | .seqstep => .opw24 (plainWord 0x9)
  | .compensate => .opw24 (plainWord 0xA)
  | .acquire => .opw24 (plainWord 0xB)
  | .addrW a => .bus8 .address (addressByte a false)
  | .addrR a => .bus8 .address (addressByte a true)
  | .regSelect r => .bus8 .register r
  | .cmdTemp => .bus8 .command 0x2E
  | .cmdPres o => .bus8 .command (presByte o)
  | .data d => .bus8 .data d
  | .ack => .ack1 false
  | .nack => .ack1 true

/-- One row of the opcode table: its name, its length in bits, the bits it fixes and their values. -/
structure TableRow where
  mnemonic : String
  nbits    : Nat
  mask     : Nat
  value    : Nat
deriving DecidableEq, Repr

/-- The opcode table, a row for each instruction (mnemonic, length, mask, match). -/
def Instr.row : Instr → TableRow
  | .beginBus => ⟨"BEGIN", 24, 0xFFFFFF, 0x100000⟩
  | .start => ⟨"START", 24, 0xFFFFFF, 0x200000⟩
  | .stop => ⟨"STOP", 24, 0xFFFFFF, 0x300000⟩
  | .wload _ _ _ => ⟨"WLOAD", 24, 0xF00F00, 0x400000⟩
  | .wstep => ⟨"WSTEP", 24, 0xFFFFFF, 0x500000⟩
  | .rload _ _ => ⟨"RLOAD", 24, 0xF0FEFF, 0x600000⟩
  | .rstep => ⟨"RSTEP", 24, 0xFFFFFF, 0x700000⟩
  | .astart => ⟨"ASTART", 24, 0xFFFFFF, 0x800000⟩
  | .seqstep => ⟨"SEQSTEP", 24, 0xFFFFFF, 0x900000⟩
  | .compensate => ⟨"COMPENSATE", 24, 0xFFFFFF, 0xA00000⟩
  | .acquire => ⟨"ACQUIRE", 24, 0xFFFFFF, 0xB00000⟩
  | .addrW _ => ⟨"ADDR_W", 8, 0x01, 0x00⟩
  | .addrR _ => ⟨"ADDR_R", 8, 0x01, 0x01⟩
  | .regSelect _ => ⟨"REG_SELECT", 8, 0x00, 0x00⟩
  | .cmdTemp => ⟨"CMD_TEMP", 8, 0xFF, 0x2E⟩
  | .cmdPres _ => ⟨"CMD_PRES", 8, 0x3F, 0x34⟩
  | .data _ => ⟨"DATA", 8, 0x00, 0x00⟩
  | .ack => ⟨"ACK", 1, 0x1, 0x0⟩
  | .nack => ⟨"NACK", 1, 0x1, 0x1⟩

/-- The length of a word's format (R80: the length is known from the format alone). -/
def Word.nbits : Word → Nat
  | .opw24 _ => 24
  | .bus8 _ _ => 8
  | .ack1 _ => 1

/-- The word's bits as a number, bit 0 the least significant. -/
def Word.bits : Word → Nat
  | .opw24 w => w.toNat
  | .bus8 _ b => b.toNat
  | .ack1 v => v.toNat

/-- The place a byte given without one is taken to have: the command place if it matches a command row, else the address
place. The table's BUS8 rows overlap, and this takes the narrowest row that fits (DESIGN CHOICE, log 5). -/
def bytePosOf (b : Byte) : BytePos :=
  match decodeCommand b with
  | .ok _ => .command
  | .error _ => .address

/-- The word whose bits are `w` in the format of `nbits` bits. No format has another length, and such bits spell nothing:
they stand as the all-zero operation word, which R96 refuses. -/
def tableWord (nbits w : Nat) : Word :=
  match nbits with
  | 24 => .opw24 (BitVec.ofNat 24 w)
  | 8 => .bus8 (bytePosOf (BitVec.ofNat 8 w)) (BitVec.ofNat 8 w)
  | 1 => .ack1 (decide (w % 2 = 1))
  | _ => .opw24 0

/-- The instruction the decoder reads from a table row's bits, none where it refuses them. -/
def decodeTableWord (nbits w : Nat) : Option Instr :=
  match decode (tableWord nbits w) with
  | .ok i => some i
  | .error _ => none

end Sys2Proof
end

