-- ==== Sys2Proof/Config.lean ====
section
/-! DEFINITION. The configuration record `CFG` of R8 with its defaults, the OPEN parameters as constants without a
value, and the free values. -/

namespace Sys2Proof

/-- `CFG` of R8. No operation writes it. -/
structure Cfg where
  /-- `SCL_LINE`: the clock line's identifier. -/
  sclLine  : Nat
  /-- `SDA_LINE`: the data line's identifier. -/
  sdaLine  : Nat
  /-- `T_HALF`: the duration of one HALF event. -/
  tHalf    : Nat
  /-- `OSS`: the oversampling setting. -/
  oss      : BitVec 2
  /-- `DEV_ADDR7`: the sensor's bus address. -/
  devAddr7 : BitVec 7
  /-- `REG_ID`: the device ID register. -/
  regId    : Byte
  /-- `REG_CAL0`: the MSB of the first calibration word. -/
  regCal0  : Byte
  /-- `REG_CTRL`: the control register. -/
  regCtrl  : Byte
  /-- `REG_OUT`: the result MSB register. -/
  regOut   : Byte
  /-- `CMD_TEMP`: the command that starts a temperature conversion. -/
  cmdTemp  : Byte
  /-- `CMD_PRES`: the command that starts a pressure conversion. -/
  cmdPres  : Byte
  /-- `T1_WAIT`: the duration of SLEEP(T1). -/
  t1Wait   : Nat
  /-- `T2_WAIT`: the duration of SLEEP(T2). -/
  t2Wait   : Nat
  /-- `CACHE_CAL`: fixed false (D24). -/
  cacheCal : Bool
deriving DecidableEq, Repr

/-- OPEN parameter `SCL_LINE` (R8). -/
opaque Config.sclLine : Nat

/-- A candidate for the OPEN parameter `SDA_LINE`. -/
opaque Config.sdaLineCandidate : Nat

/-- OPEN parameter `SDA_LINE` (R8): any identifier but `SCL_LINE` (D31). -/
def Config.sdaLine : Nat :=
  if Config.sdaLineCandidate = Config.sclLine then Config.sclLine + 1 else Config.sdaLineCandidate

/-- `T_HALF` less one time unit: an OPEN parameter (D15) that must be positive (R8). -/
opaque Config.tHalfLessOne : Nat

/-- OPEN parameter `T1_WAIT` (D14). -/
opaque Config.t1Wait : Nat

/-- OPEN parameter `T2_WAIT` (D14). -/
opaque Config.t2Wait : Nat

/-- FREE VALUE: the line value the environment draws for the n-th sample (R11, R121, U2; log 6). -/
opaque Config.freeSample : Nat → Bit

/-- FREE VALUE: what `r_bits` becomes when a read bit step finds it already 0, a state no run reaches (R163, R48;
log 12). -/
opaque Config.readCountUnderflow : Nat → Fin 9

/-- The configuration with the defaults of R8. The addresses and commands are PRESUMED: the spec marks them as general
knowledge (log 8). -/
def Cfg.default : Cfg where
  sclLine  := Config.sclLine
  sdaLine  := Config.sdaLine
  tHalf    := Config.tHalfLessOne + 1
  oss      := 0
  devAddr7 := 0x77
  regId    := 0xD0
  regCal0  := 0xAA
  regCtrl  := 0xF4
  regOut   := 0xF6
  cmdTemp  := 0x2E
  cmdPres  := 0x34
  t1Wait   := Config.t1Wait
  t2Wait   := Config.t2Wait
  cacheCal := false

end Sys2Proof
end

