-- ==== Sys2Proof/Machine/State.lean ====
section
/-! DEFINITION. The machine's state: every field of R20 to R44 as plain data, the configuration it was constructed
with, and the model's own fields for the host and the environment. -/

namespace Sys2Proof.Machine

/-- The model faults of R273. An operation that raises one records it in `State.fault` and changes nothing else (R44, R46),
so every reason but `badConfig` appears in a next state, not as a stop of the machine (log 1). Safe: the core is stuck from
then on (R274), so no effect is claimed that it does not have. -/
inductive Fault where
  /-- `F_NOT_BEGUN`: any operation but BEGIN before the first BEGIN (R23). Safe. -/
  | notBegun
  /-- `F_BUSY`: every operation but SEQSTEP while an acquisition is in flight (R125, R131, R183, R243). Safe. -/
  | busy
  /-- `F_ENGINE_BUSY`: an operation that needs both sub-machines idle while one is busy (R125, R126, R141, R161, R183); also a
  bus pattern the busy sub-machine has no place for (log 17). Safe. -/
  | engineBusy
  /-- `F_NOT_LOADED`: WSTEP or RSTEP with its sub-machine idle (R145, R166); also a bus pattern that needs a loaded one (log
  17). Safe. -/
  | notLoaded
  /-- `F_BUS_NOT_IDLE`: ASTART or ACQUIRE with a line not released (R183). Safe. -/
  | busNotIdle
  /-- `F_NO_ACQUISITION`: SEQSTEP in IDLE, DONE or FAILED (R184). Safe. -/
  | noAcquisition
  /-- `F_INVALID_PHASE`: SEQSTEP in a combination no run reaches (R196; log 13). Safe. -/
  | invalidPhase
  /-- `F_UNPOPULATED`: COMPENSATE or a commit with an input that is `none` (R12, R194, R243). Safe. -/
  | unpopulated
  /-- `F_BAD_CONFIG`: construction with a `CFG` that breaks a constraint (R8, R304). The one reason that stops the machine:
  no machine is made. Safe. -/
  | badConfig
deriving DecidableEq, Repr

/-- Why an instruction is turned away without a meaning. A word that spells no operation is not turned away here: it sets
`State.refused` (R96; log 2). -/
inductive Refusal where
  /-- An instruction without a meaning in this model. No arm raises it: all have one. Safe. -/
  | notModelled (mnemonic : String)
deriving DecidableEq, Repr

/-- The write sub-machine's state (R25, R140). -/
inductive WState where
  | idle | shift | ackCheck
deriving DecidableEq, Repr

/-- The read sub-machine's state (R30, R160). -/
inductive RState where
  | idle | priming | reading | sendNack | sendAck
deriving DecidableEq, Repr

/-- The logical step (R33, R87, R181). -/
inductive Step where
  | idle | readDeviceId
  | readAC1 | readAC2 | readAC3 | readAC4 | readAC5 | readAC6 | readB1 | readB2 | readMB | readMC | readMD
  | triggerTemp | waitT1 | readUT | triggerPressure | waitT2 | readUP
  | done | failed
deriving DecidableEq, Repr

/-- The architectural error codes (R41, R89). -/
inductive ErrCode where
  | none | busAck | compDiv0 | compOvf
deriving DecidableEq, Repr

/-- The nodes of the compensation datapath (R236 to R240). -/
inductive NodeId where
  | t1 | t2 | t3 | t4 | t5 | t6 | t7
  | p1 | p2 | p3 | p4 | p5 | p6 | p7 | p8 | p9 | p10 | p11 | p12 | p13 | p14 | p15 | p16 | p17 | p18 | p19 | p20
  | p21 | p22 | p23 | p24 | p25 | p26
deriving DecidableEq, Repr

/-- What an error records: where the acknowledgement failed (R271), or the first failing node (R272). -/
inductive ErrInfo where
  | bus (failStep : Option Step) (failPhase : Option Phase)
  | node (n : NodeId)
deriving DecidableEq, Repr

/-- The value of `result` when there is one (R42): temperature in 0.1 °C and pressure in Pa, both s32 (read with
`BitVec.toInt`), or an error. -/
inductive Result where
  | ok (temperature pressure : BitVec 32)
  | err (code : ErrCode) (info : ErrInfo)
deriving DecidableEq, Repr

/-- A bus event of the trace (R11, R43). -/
inductive BusEvent where
  | scl (v : Bit)
  | sda (v : Bit)
  | half
  | sample (b : Bit)
  | sleepT1
  | sleepT2
deriving DecidableEq, Repr

/-- What one WSTEP returns (R95). -/
inductive WReturn where
  | inProgress | ack | nack
deriving DecidableEq, Repr

/-- What one RSTEP returns (R95). -/
inductive RReturn where
  | inProgress | complete
deriving DecidableEq, Repr

/-- What one SEQSTEP returns (R95, R208). -/
inductive SeqReturn where
  | running | done | failed
deriving DecidableEq, Repr

/-- What an operation returns to its caller (R95). -/
inductive Ret where
  | nothing
  | wstep (r : WReturn)
  | rstep (r : RReturn)
  | seqstep (r : SeqReturn)
  | result (r : Option Result)
deriving DecidableEq, Repr

/-- The master's outputs `scl_o` and `sda_o` (R22). -/
structure Lines where
  scl : Option Bit
  sda : Option Bit
deriving DecidableEq, Repr

/-- The write sub-machine's context (R25 to R28). -/
structure WriteCtx where
  state : WState
  byte  : Byte
  bits  : Fin 9
  succ  : Phase
  err   : Phase
deriving DecidableEq, Repr

/-- The read sub-machine's context (R30 to R32). -/
structure ReadCtx where
  state : RState
  byte  : Byte
  bits  : Fin 9
  nack  : Bool
  succ  : Phase
deriving DecidableEq, Repr

/-- The receive buffer `buf[0..2]` (R36). -/
structure RxBuffer where
  b0 : Option Byte
  b1 : Option Byte
  b2 : Option Byte
deriving DecidableEq, Repr

/-- The CalibrationSet (R38): eleven 16-bit words, each signed or unsigned by its name alone (log 18). -/
structure Calibration where
  ac1 : Option (BitVec 16)
  ac2 : Option (BitVec 16)
  ac3 : Option (BitVec 16)
  ac4 : Option (BitVec 16)
  ac5 : Option (BitVec 16)
  ac6 : Option (BitVec 16)
  b1  : Option (BitVec 16)
  b2  : Option (BitVec 16)
  mb  : Option (BitVec 16)
  mc  : Option (BitVec 16)
  md  : Option (BitVec 16)
deriving DecidableEq, Repr

/-- The reference sensor before any bus event (R286): its address, its register space as cells in canonical form (strictly
rising addresses, no cell holding what an unlisted address reads as), and what its two conversions load. -/
structure Sensor where
  addr7    : BitVec 7
  regs     : List Host.Cell
  temp     : BitVec 16
  pressure : BitVec 24
deriving DecidableEq, Repr

/-- The environment's side of the bus (R7, R11; log 6, log 7): line values it has ready for the next samples, the reference
sensor if that is what answers once they are used up, and how many samples were drawn. The MODEL's own field. -/
structure Env where
  answers : List Bit
  sensor  : Option Sensor
  drawn   : Nat
deriving DecidableEq, Repr

/-- The state record of R20. The fields after `refused` are the MODEL's own. -/
structure State where
  /-- `CFG` (R8, S0 of R45): no operation writes it. -/
  cfg       : Cfg
  /-- `scl_o`, `sda_o` (R22). -/
  lines     : Lines
  /-- `begun` (R23). -/
  begun     : Bool
  /-- `phase` (R24). -/
  phase     : Phase
  /-- `w_state`, `w_byte`, `w_bits`, `w_succ`, `w_err` (R25 to R28). -/
  w         : WriteCtx
  /-- `last_ack` (R29). -/
  lastAck   : Option Bit
  /-- `r_state`, `r_byte`, `r_bits`, `r_nack`, `r_succ` (R30 to R32). -/
  r         : ReadCtx
  /-- `step` (R33). -/
  step      : Step
  /-- `idx` (R35). -/
  idx       : Fin 4
  /-- `buf[0..2]` (R36). -/
  buf       : RxBuffer
  /-- `dev_id` (R37). -/
  devId     : Option Byte
  /-- AC1 … MD (R38). -/
  cal       : Calibration
  /-- `ut` (R39), u16. -/
  ut        : Option (BitVec 16)
  /-- `up` (R39), u(16 + OSS), at most 19 bits. -/
  up        : Option (BitVec 19)
  /-- `fail_step` (R40). -/
  failStep  : Option Step
  /-- `fail_phase` (R40). -/
  failPhase : Option Phase
  /-- `err_code` (R41). -/
  errCode   : ErrCode
  /-- `result` (R42). -/
  result    : Option Result
  /-- `trace` (R43), in emission order. -/
  trace     : List BusEvent
  /-- `fault` (R44), the sticky fault mark. -/
  fault     : Option Fault
  /-- `refused` (R44), the sticky refusal mark. -/
  refused   : Bool
  /-- MODEL's own: what the last operation that returned gave its caller (R95; log 11). -/
  ret       : Ret
  /-- MODEL's own: the environment (log 6). -/
  env       : Env
  /-- MODEL's own: the words the host has invoked and the core has not run, oldest first (log 3). -/
  pending   : List Word
deriving DecidableEq, Repr

/-- The write context at reset (R300). -/
def WriteCtx.reset : WriteCtx := ⟨.idle, 0, 0, .idle, .idle⟩

/-- The read context at reset (R300). -/
def ReadCtx.reset : ReadCtx := ⟨.idle, 0, 0, false, .idle⟩

/-- A receive buffer with nothing received (R36). -/
def RxBuffer.empty : RxBuffer := ⟨none, none, none⟩

/-- A CalibrationSet with no field populated (R38). -/
def Calibration.empty : Calibration := ⟨none, none, none, none, none, none, none, none, none, none, none⟩

/-- The reset state of R300 under a configuration. -/
def State.resetWith (c : Cfg) : State where
  cfg       := c
  lines     := ⟨none, none⟩
  begun     := false
  phase     := .idle
  w         := WriteCtx.reset
  lastAck   := none
  r         := ReadCtx.reset
  step      := .idle
  idx       := 0
  buf       := RxBuffer.empty
  devId     := none
  cal       := Calibration.empty
  ut        := none
  up        := none
  failStep  := none
  failPhase := none
  errCode   := .none
  result    := none
  trace     := []
  fault     := none
  refused   := false
  ret       := .nothing
  env       := ⟨[], none, 0⟩
  pending   := []

/-- The machine right after reset, constructed with the default configuration (R8, R300). -/
def State.reset : State := State.resetWith Cfg.default

end Sys2Proof.Machine
end

