-- ==== Sys2Proof/Machine/Memory.lean ====
section
/-! DEFINITION. The sensor register space (R60, R70) as cells in canonical form. It belongs to the reference sensor,
not to the core: the core has no memory. -/

namespace Sys2Proof.Machine

/-- The sensor's registers: (address, byte) cells. -/
abbrev Memory := List Host.Cell

/-- What a register with no cell reads as (DESIGN CHOICE, log 7: no rule gives a register's power-on value). -/
def unlistedByte : Byte := 0

/-- The canonical form: addresses strictly rising and within the 256 registers of R60, and no cell equal to what an unlisted
address reads as. -/
def Memory.wf (m : Memory) : Bool :=
  decide (m.Pairwise fun a b => a.1 < b.1) && m.all fun c => decide (c.1 < 256) && decide (c.2 ≠ unlistedByte)

/-- The byte at an address. -/
def Memory.read : Memory → Nat → Byte
  | [], _ => unlistedByte
  | c :: m, a => if c.1 = a then c.2 else Memory.read m a

/-- A cell for a byte, none for the byte an unlisted address reads as. -/
def cellFor (a : Nat) (v : Byte) : Memory := if v = unlistedByte then [] else [(a, v)]

/-- Writing one byte, keeping the canonical form. -/
def Memory.write : Memory → Nat → Byte → Memory
  | [], a, v => cellFor a v
  | c :: m, a, v =>
    if a < c.1 then cellFor a v ++ (c :: m)
    else if a = c.1 then cellFor a v ++ m
    else c :: Memory.write m a v

/-- What the sensor answers for a register: 0xD0 is the chip ID, 0x55, whatever was written there (R286), and any other reads as its
cell. -/
def regRead (m : Memory) (a : Byte) : Byte := if a = 0xD0 then 0x55 else m.read a.toNat

/-- `MemRead(addr, n)` of R61: the bytes the sensor answers for n consecutive registers, the 8-bit register pointer advancing after
each. After 0xFF it goes to 0x00, where the spec says only that it advances (DESIGN CHOICE, log 7). -/
def memRead (m : Memory) (addr : Byte) : Nat → List Byte
  | 0 => []
  | n + 1 => regRead m addr :: memRead m (addr + 1) n

/-- `MemWrite(addr, 1, v)` of R61: one register. -/
def memWrite (m : Memory) (addr v : Byte) : Memory := m.write addr.toNat v

end Sys2Proof.Machine
end

