-- ==== Sys2Proof/Machine/Sensor.lean ====
section
/-! DEFINITION. The reference sensor of R286, a model of the environment: a bus slave that watches the master's line
events. No rule of the core depends on it. Its bus state is a function of the trace, so it adds nothing to the core's
state. -/

namespace Sys2Proof.Machine

/-- What the sensor is doing with the bits on the bus. -/
inductive SensorMode where
  /-- Not in a transaction, or not addressed, or past a NACK: it drives nothing. -/
  | silent
  /-- Receiving the address byte. -/
  | address
  /-- Receiving in a write transaction, `pointerNext` if the next byte is the register address. -/
  | receive (pointerNext : Bool)
  /-- Driving the bytes of a read transaction. -/
  | transmit
deriving DecidableEq, Repr

/-- The sensor's side of the bus: the lines as the master last set them, the clock pulses of the current byte, the shift
register, what it drives (1 is released), its register pointer and its registers. -/
structure SensorBus where
  scl   : Bit
  sda   : Bit
  mode  : SensorMode
  pulse : Nat
  shift : Byte
  drive : Bit
  ptr   : Byte
  regs  : Memory
deriving DecidableEq, Repr

/-- The sensor before any event. R286 gives none of what it holds then but the registers, and N12 of 91_not_in_source.md says to
assume neither that the lines are high nor that the sensor is idle. So these are the model's (DESIGN CHOICE, log 7): it has last
seen both lines high, is silent in no transaction, has counted no clock pulse and shifted no bit, drives nothing, and its register
pointer is 0x00 until a write transaction sets it. -/
def Sensor.start (sn : Sensor) : SensorBus := ⟨true, true, .silent, 0, 0, true, 0, sn.regs⟩

/-- Reading a register, as `memRead` does (R61, R286). -/
def SensorBus.readReg (b : SensorBus) (a : Byte) : Byte := regRead b.regs a

/-- The registers after a command: 0x2E at 0xF4 loads UT into 0xF6 and 0xF7, and 0x34 OR (oss << 6) the pressure into
0xF6 to 0xF8. -/
def Sensor.convert (sn : Sensor) (m : Memory) (v : Byte) : Memory :=
  if v = 0x2E then
    memWrite (memWrite m 0xF6 (sn.temp.extractLsb' 8 8)) 0xF7 (sn.temp.extractLsb' 0 8)
  else if v.extractLsb' 0 6 = 0x34 then
    memWrite (memWrite (memWrite m 0xF6 (sn.pressure.extractLsb' 16 8)) 0xF7 (sn.pressure.extractLsb' 8 8))
      0xF8 (sn.pressure.extractLsb' 0 8)
  else m

/-- Writing a register; a write to 0xF4 starts a conversion (R69, R286). -/
def Sensor.writeReg (sn : Sensor) (m : Memory) (a v : Byte) : Memory :=
  if a = 0xF4 then sn.convert (memWrite m a v) v else memWrite m a v

/-- A byte has passed whole, at the falling edge of its eighth pulse: acknowledge it or not, or, having sent it, release the line.
The register pointer advances after each byte read or written, the last of a read as well; past 0xFF it goes to 0x00 (DESIGN
CHOICE, log 7). -/
def Sensor.gotByte (sn : Sensor) (b : SensorBus) : SensorBus :=
  match b.mode with
  | .silent => b
  | .address => if b.shift.extractLsb' 1 7 = sn.addr7 then { b with drive := false } else { b with mode := .silent }
  | .receive true => { b with drive := false, ptr := b.shift, mode := .receive false }
  | .receive false => { b with drive := false, regs := sn.writeReg b.regs b.ptr b.shift, ptr := b.ptr + 1 }
  | .transmit => { b with drive := true, ptr := b.ptr + 1 }

/-- Drive the most significant bit of a byte to send. -/
def SensorBus.send (b : SensorBus) (v : Byte) : SensorBus :=
  { b with mode := .transmit, shift := v, drive := v.getLsbD 7 }

/-- The acknowledge slot is over, at the falling edge of the ninth pulse: release the line, or begin the next byte. -/
def SensorBus.nextByte (b : SensorBus) : SensorBus :=
  let b := { b with pulse := 0, drive := true }
  match b.mode with
  | .silent => b
  | .address =>
    if b.shift.getLsbD 0 then b.send (b.readReg b.ptr) else { b with mode := .receive true, shift := 0 }
  | .receive p => { b with mode := .receive p, shift := 0 }
  | .transmit => b.send (b.readReg b.ptr)

/-- The clock rises: a receiver takes the bit in; in the ninth pulse a transmitter reads the master's slot, and a NACK makes
it stop driving. -/
def SensorBus.clockRise (b : SensorBus) : SensorBus :=
  let b := { b with scl := true, pulse := b.pulse + 1 }
  match b.mode with
  | .silent => b
  | .address => if b.pulse ≤ 8 then { b with shift := (b.shift <<< 1) ||| b.sda.toNat } else b
  | .receive _ => if b.pulse ≤ 8 then { b with shift := (b.shift <<< 1) ||| b.sda.toNat } else b
  | .transmit => if b.pulse = 9 && b.sda then { b with mode := .silent, drive := true } else b

/-- The clock falls. -/
def Sensor.clockFall (sn : Sensor) (b : SensorBus) : SensorBus :=
  let b := { b with scl := false }
  if b.pulse = 8 then sn.gotByte b
  else if b.pulse = 9 then b.nextByte
  else match b.mode with
    | .transmit => if b.pulse = 0 then b else b.send (b.shift <<< 1)
    | .silent | .address | .receive _ => b

/-- The master changes its data output: with the clock high, a fall is a start and a rise is a stop condition (R126, R128). R286 says
neither that the sensor watches the wired line of R121 nor that it watches the master's output alone. The model's watches the
master's output, so a start or a stop issued while the sensor itself drives 0 counts (DESIGN CHOICE, log 7). That either condition
makes it release the line and drop an unfinished byte is PRESUMED (log 7); the pointer stands. -/
def SensorBus.dataChange (b : SensorBus) (v : Bit) : SensorBus :=
  if b.scl && b.sda && !v then { b with sda := v, mode := .address, pulse := 0, shift := 0, drive := true }
  else if b.scl && !b.sda && v then { b with sda := v, mode := .silent, pulse := 0, drive := true }
  else { b with sda := v }

/-- The sensor sees one event of the master. -/
def Sensor.observe (sn : Sensor) (b : SensorBus) : BusEvent → SensorBus
  | .scl true => if b.scl then b else b.clockRise
  | .scl false => if b.scl then sn.clockFall b else b
  | .sda v => b.dataChange v
  | .half => b
  | .sample _ => b
  | .sleepT1 => b
  | .sleepT2 => b

/-- The sensor's side of the bus after a trace. -/
def Sensor.after (sn : Sensor) (trace : List BusEvent) : SensorBus := trace.foldl sn.observe sn.start

/-- What the sensor drives on the data line after a trace. -/
def Sensor.drives (sn : Sensor) (trace : List BusEvent) : Bit := (sn.after trace).drive

/-- The reference sensor's register space after a trace. -/
def Sensor.registers (sn : Sensor) (trace : List BusEvent) : Memory := (sn.after trace).regs

end Sys2Proof.Machine
end

