-- ==== Sys2Proof/Machine/Ops.lean ====
section
/-! DEFINITION. The shared operations: emitting bus events, sampling, the wave forms of R124 to R128, the guards of R131,
raising a fault, refusing, returning to the caller, and construction with a configuration. -/

namespace Sys2Proof.Machine

/-! ### Bus events -/

/-- The master's outputs after an event (R22): SCL and SDA events set a line, the others leave both. -/
def Lines.after (l : Lines) : BusEvent → Lines
  | .scl v => { l with scl := some v }
  | .sda v => { l with sda := some v }
  | .half => l
  | .sample _ => l
  | .sleepT1 => l
  | .sleepT2 => l

/-- Emit one event: it is appended to the trace and sets its line (R11, R22, R43, R72). -/
def State.emit (s : State) (e : BusEvent) : State :=
  { s with lines := s.lines.after e, trace := s.trace ++ [e] }

/-- Emit events in order. -/
def State.emitAll (s : State) (es : List BusEvent) : State := es.foldl State.emit s

/-- What the environment has for the next sample: a line value it has ready, else what the reference sensor drives, else a
free draw (R11, R121; log 6). -/
def State.draw (s : State) : Bit :=
  match s.env.answers, s.env.sensor with
  | b :: _, _ => b
  | [], some sn => sn.drives s.trace
  | [], none => Config.freeSample s.env.drawn

/-- The value of the data line (R121): 0 while the master drives it low, else the environment's draw. -/
def State.sampleBit (s : State) : Bit :=
  if s.lines.sda = some false then false else s.draw

/-- The environment once it has answered a sample. -/
def Env.advance (e : Env) : Env := { e with answers := e.answers.tail, drawn := e.drawn + 1 }

/-- `b <- SAMPLE()` (R11): the trace records the value. -/
def State.sample (s : State) : State :=
  { s with env := s.env.advance, trace := s.trace ++ [.sample s.sampleBit] }

/-! ### Wave forms (R124 to R128, D3) -/

/-- The rising half of a clock pulse, up to the sample point: HALF, SCL(1), HALF (R124). -/
def clockHigh : List BusEvent := [.half, .scl true, .half]

/-- BEGIN (R125): both lines released, the clock first. -/
def beginWave : List BusEvent := [.scl true, .sda true]

/-- A start or repeated start condition (R126, R127). -/
def startWave : List BusEvent := [.sda true, .scl true, .half, .sda false, .half, .scl false]

/-- A stop condition (R128). -/
def stopWave : List BusEvent := [.sda false, .scl true, .half, .sda true, .half]

/-- One data bit of a write (R142). -/
def writeBitWave (b : Bit) : List BusEvent := .sda b :: clockHigh ++ [.scl false]

/-- The acknowledge check up to its sample (R143). -/
def ackCheckWave : List BusEvent := .sda true :: clockHigh

/-- The ACK a read sends (R164). -/
def sendAckWave : List BusEvent := .sda false :: clockHigh ++ [.scl false, .sda true]

/-- The NACK a read sends (R165). -/
def sendNackWave : List BusEvent := .sda true :: clockHigh ++ [.scl false]

/-! ### Counters and fields -/

/-- A bit counter one lower. It is applied to counters that are not 0. -/
def countDown (n : Fin 9) : Fin 9 := ⟨n.val - 1, by omega⟩

def State.setW (s : State) (w : WriteCtx) : State := { s with w := w }
def State.setR (s : State) (r : ReadCtx) : State := { s with r := r }
def State.setPhase (s : State) (p : Phase) : State := { s with phase := p }

/-- Both sub-machines are idle. -/
def State.engineIdle (s : State) : Bool := s.w.state == .idle && s.r.state == .idle

/-- No acquisition is in flight: step ∈ {IDLE, DONE, FAILED} (R209). -/
def Step.resting : Step → Bool
  | .idle => true
  | .done => true
  | .failed => true
  | _ => false

/-! ### Faults, refusal and return -/

/-- `raise Fault(F_x)`, the one way an exception is taken: the reason is recorded, and no other field changes (R11, R44, R46,
R273). The core has no mode, vector or saved program counter to change (R278), and nothing returns from it (R274, R280). -/
def State.raise (s : State) (f : Fault) : State := { s with fault := some f }

/-- A refused word sets the mark and changes nothing else (R96). -/
def State.refuse (s : State) : State := { s with refused := true }

/-- The value an operation hands its caller (R95). -/
def State.returning (s : State) (r : Ret) : State := { s with ret := r }

/-- A fault or a refusal is recorded: every later operation repeats it and changes nothing (R44, R96, R274). -/
def State.marked (s : State) : Bool := s.fault.isSome || s.refused

/-- Run an operation's body as the host invokes it. The marks come before its own checks (R277); a body that raises leaves the
state with the mark alone, whatever it did before raising (R11, R13). -/
def invoke (s : State) (body : Except Fault State) : Host.Outcome State Fault Refusal :=
  if s.marked then .next s
  else match body with
    | .ok t => .next t
    | .error f => .next (s.raise f)

/-- `host_guard()` (R131). -/
def hostGuard (s : State) : Except Fault Unit :=
  if !s.begun then .error .notBegun
  else if !s.step.resting then .error .busy
  else .ok ()

/-! ### Start and stop conditions, shared by the host's operations and the Sequencer -/

/-- `start_condition()` with its engine check (R126). -/
def startCondition (s : State) : Except Fault State :=
  if !s.engineIdle then .error .engineBusy else .ok (s.emitAll startWave)

/-- `stop_condition()` with its engine check (R128). -/
def stopCondition (s : State) : Except Fault State :=
  if !s.engineIdle then .error .engineBusy else .ok (s.emitAll stopWave)

/-! ### Construction -/

/-- The constraints a configuration must meet (R8): REG_CAL0 is even and REG_CAL0 + 21 ≤ 0xFF, REG_OUT + 2 ≤ 0xFF, the lines
are distinct (D31), T_HALF is positive. OSS and CACHE_CAL have the one value R8 fixes (R4; log 10). -/
def configOk (c : Cfg) : Bool :=
  !c.regCal0.getLsbD 0 && decide (c.regCal0.toNat + 21 ≤ 0xFF) && decide (c.regOut.toNat + 2 ≤ 0xFF) &&
    decide (c.sdaLine ≠ c.sclLine) && decide (0 < c.tHalf) && decide (c.oss = 0) && !c.cacheCal

/-- The host configures the core: the reset state, or F_BAD_CONFIG (R290, R300, R304). -/
def State.construct (c : Cfg) : Host.Outcome State Fault Refusal :=
  if configOk c then .next (State.resetWith c) else .fault .badConfig

/-! ### Invocation -/

/-- The oldest invoked word and the state without it, none where the host has invoked nothing (R276; log 3). -/
def State.fetch (s : State) : Option (Word × State) :=
  match s.pending with
  | [] => none
  | w :: rest => some (w, { s with pending := rest })

/-- The host invokes a word before any other it has waiting. -/
def State.invokeFirst (s : State) (w : Word) : State := { s with pending := w :: s.pending }

end Sys2Proof.Machine
end

