-- ==== Sys2Proof/Machine/Flags.lean ====
section
/-! DEFINITION. The core's flags and status codes: the acknowledgement flag, the failure record and the error code. -/

namespace Sys2Proof.Machine

/-- Record the sampled acknowledgement (R29): the core's only condition flag. -/
def State.setAck (s : State) (a : Bit) : State := { s with lastAck := some a }

/-- The continuation an acknowledgement selects (R143, R146): 0 is ACK, 1 is NACK (R84). -/
def WriteCtx.continuation (w : WriteCtx) (a : Bit) : Phase := if a then w.err else w.succ

/-- What the acknowledge check returns (R95, R143). -/
def ackReturn (a : Bit) : WReturn := if a then .nack else .ack

/-- Record where an acknowledgement failed (R40, R186). -/
def State.recordFail (s : State) (st : Step) (p : Phase) : State :=
  { s with failStep := some st, failPhase := some p }

/-- The 8-bit error code (R89). -/
def ErrCode.code : ErrCode → BitVec 8
  | .none => 0
  | .busAck => 1
  | .compDiv0 => 2
  | .compOvf => 3

end Sys2Proof.Machine
end

