-- ==== Sys2Proof/Machine/Operands.lean ====
section
/-! DEFINITION. The operands the Sequencer and the calculator work on: byte assembly (R246), the address bytes (R81), the
fixed step order (R181), the step table (R182), and the calibration fields with their signedness (R38). -/

namespace Sys2Proof.Machine

/-! ### Byte assembly (R64, R246): the first byte received is the most significant -/

/-- The 16-bit pattern of two bytes. -/
def asm16 (h l : Byte) : BitVec 16 := h ++ l

/-- `asm16u(h, l)`: u16. -/
def asm16u (h l : Byte) : Nat := (asm16 h l).toNat

/-- `asm16s(h, l)`: s16. -/
def asm16s (h l : Byte) : Int := (asm16 h l).toInt

/-- `asm24(h, m, l)`: u24. -/
def asm24 (h m l : Byte) : BitVec 24 := h ++ m ++ l

/-- The uncompensated pressure: `asm24(…) >> (8 − OSS)` (R194), at most 19 bits (R39). -/
def assembleUp (oss : BitVec 2) (h m l : Byte) : BitVec 19 := ((asm24 h m l) >>> (8 - oss.toNat)).truncate 19

/-! ### Calibration fields -/

/-- The eleven fields of the CalibrationSet (R38). -/
inductive CalField where
  | ac1 | ac2 | ac3 | ac4 | ac5 | ac6 | b1 | b2 | mb | mc | md
deriving DecidableEq, Repr

/-- AC4, AC5 and AC6 are unsigned, the others signed (R38). -/
def CalField.signed : CalField → Bool
  | .ac4 => false
  | .ac5 => false
  | .ac6 => false
  | _ => true

/-- The integer a field's 16-bit pattern stands for: the field fixes the signedness, never the bits (R64, R246). -/
def CalField.value (f : CalField) (p : BitVec 16) : Int := if f.signed then p.toInt else (p.toNat : Int)

def Calibration.get (c : Calibration) : CalField → Option (BitVec 16)
  | .ac1 => c.ac1
  | .ac2 => c.ac2
  | .ac3 => c.ac3
  | .ac4 => c.ac4
  | .ac5 => c.ac5
  | .ac6 => c.ac6
  | .b1 => c.b1
  | .b2 => c.b2
  | .mb => c.mb
  | .mc => c.mc
  | .md => c.md

def Calibration.set (c : Calibration) (f : CalField) (v : BitVec 16) : Calibration :=
  match f with
  | .ac1 => { c with ac1 := some v }
  | .ac2 => { c with ac2 := some v }
  | .ac3 => { c with ac3 := some v }
  | .ac4 => { c with ac4 := some v }
  | .ac5 => { c with ac5 := some v }
  | .ac6 => { c with ac6 := some v }
  | .b1 => { c with b1 := some v }
  | .b2 => { c with b2 := some v }
  | .mb => { c with mb := some v }
  | .mc => { c with mc := some v }
  | .md => { c with md := some v }

/-! ### The receive buffer -/

/-- The element `buf[i]`; there is no `buf[3]` (R36). -/
def RxBuffer.get (b : RxBuffer) : Nat → Option Byte
  | 0 => b.b0
  | 1 => b.b1
  | 2 => b.b2
  | _ => none

/-- `buf[i] <- v`, none where there is no such element (log 13). -/
def RxBuffer.set (b : RxBuffer) (i : Nat) (v : Byte) : Option RxBuffer :=
  match i with
  | 0 => some { b with b0 := some v }
  | 1 => some { b with b1 := some v }
  | 2 => some { b with b2 := some v }
  | _ => none

/-! ### The fixed sequence -/

/-- `next(s)` (R181): the chain from IDLE to DONE. IDLE is left by ASTART alone, and DONE and FAILED have no successor. -/
def Step.next : Step → Option Step
  | .idle => some .readDeviceId
  | .readDeviceId => some .readAC1
  | .readAC1 => some .readAC2
  | .readAC2 => some .readAC3
  | .readAC3 => some .readAC4
  | .readAC4 => some .readAC5
  | .readAC5 => some .readAC6
  | .readAC6 => some .readB1
  | .readB1 => some .readB2
  | .readB2 => some .readMB
  | .readMB => some .readMC
  | .readMC => some .readMD
  | .readMD => some .triggerTemp
  | .triggerTemp => some .waitT1
  | .waitT1 => some .readUT
  | .readUT => some .triggerPressure
  | .triggerPressure => some .waitT2
  | .waitT2 => some .readUP
  | .readUP => some .done
  | .done => none
  | .failed => none

/-- Where a read step's bytes go (the target column of R182). -/
inductive Target where
  | devId
  | cal (f : CalField)
  | ut
  | up
deriving DecidableEq, Repr

/-- One row of the step table (R182). -/
inductive StepRow where
  /-- Read `n` bytes at `reg` into `target`. -/
  | read (reg : Byte) (n : Nat) (target : Target)
  /-- Write the command `cmd` to `reg`. -/
  | write (reg cmd : Byte)
  /-- A conversion wait. -/
  | wait (sleep : BusEvent)
deriving DecidableEq, Repr

/-- The step table (R182). The Sequencer reads nothing else about a step. -/
def stepRow (c : Cfg) : Step → Option StepRow
  | .idle => none
  | .readDeviceId => some (.read c.regId 1 .devId)
  | .readAC1 => some (.read c.regCal0 2 (.cal .ac1))
  | .readAC2 => some (.read (c.regCal0 + 2) 2 (.cal .ac2))
  | .readAC3 => some (.read (c.regCal0 + 4) 2 (.cal .ac3))
  | .readAC4 => some (.read (c.regCal0 + 6) 2 (.cal .ac4))
  | .readAC5 => some (.read (c.regCal0 + 8) 2 (.cal .ac5))
  | .readAC6 => some (.read (c.regCal0 + 10) 2 (.cal .ac6))
  | .readB1 => some (.read (c.regCal0 + 12) 2 (.cal .b1))
  | .readB2 => some (.read (c.regCal0 + 14) 2 (.cal .b2))
  | .readMB => some (.read (c.regCal0 + 16) 2 (.cal .mb))
  | .readMC => some (.read (c.regCal0 + 18) 2 (.cal .mc))
  | .readMD => some (.read (c.regCal0 + 20) 2 (.cal .md))
  | .triggerTemp => some (.write c.regCtrl c.cmdTemp)
  | .waitT1 => some (.wait .sleepT1)
  | .readUT => some (.read c.regOut 2 .ut)
  | .triggerPressure => some (.write c.regCtrl c.cmdPres)
  | .waitT2 => some (.wait .sleepT2)
  | .readUP => some (.read c.regOut 3 .up)
  | .done => none
  | .failed => none

/-- The kinds of R182. -/
def StepRow.isRead : StepRow → Bool
  | .read _ _ _ => true
  | _ => false

def StepRow.isWrite : StepRow → Bool
  | .write _ _ => true
  | _ => false

def StepRow.isWait : StepRow → Bool
  | .wait _ => true
  | _ => false

/-- `N(step)` (R182): a trigger step reads 0 bytes. -/
def StepRow.count : StepRow → Nat
  | .read _ n _ => n
  | .write _ _ => 0
  | .wait _ => 0

/-- ADDR_W (R81): `(DEV_ADDR7 << 1) OR 0`. -/
def addrWByte (c : Cfg) : Byte := addressByte c.devAddr7 false

/-- ADDR_R (R81): `(DEV_ADDR7 << 1) OR 1`. -/
def addrRByte (c : Cfg) : Byte := addressByte c.devAddr7 true

end Sys2Proof.Machine
end

