-- ==== Sys2Proof/Machine/Compensation.lean ====
section
/-! DEFINITION. The Compensation Calculator (R230 to R242) and the operation COMPENSATE (R243). The spec marks every line of
R236 to R240 but the last temperature step as general knowledge (log 19). -/

namespace Sys2Proof.Machine

/-- The calculator's errors (R230): a zero divisor or a node out of range, at a node. -/
inductive CompError where
  | div0 (n : NodeId)
  | ovf (n : NodeId)
deriving DecidableEq, Repr

/-- The calculator's inputs as integers (R230). -/
structure CompInput where
  ac1 : Int
  ac2 : Int
  ac3 : Int
  ac4 : Int
  ac5 : Int
  ac6 : Int
  b1  : Int
  b2  : Int
  mb  : Int
  mc  : Int
  md  : Int
  ut  : Int
  up  : Int
deriving DecidableEq, Repr

/-! ### Arithmetic (R10, R231 to R235) -/

/-- The floor shift `x >> n`, ⌊x / 2^n⌋ (R10, R234). -/
def sar (x : Int) (n : Nat) : Int := x / 2 ^ n

/-- The range of a signed node (R231). -/
abbrev inS32 (v : Int) : Prop := -2147483648 ≤ v ∧ v ≤ 2147483647

/-- The range of an unsigned node (R231). -/
abbrev inU32 (v : Int) : Prop := 0 ≤ v ∧ v ≤ 4294967295

/-- A signed node: its exact value, or the overflow error (R232). -/
def nodeS (n : NodeId) (v : Int) : Except CompError Int := if inS32 v then .ok v else .error (.ovf n)

/-- An unsigned node (R232). -/
def nodeU (n : NodeId) (v : Int) : Except CompError Int := if inU32 v then .ok v else .error (.ovf n)

/-- A divisor that is not 0 (R233). -/
def divisor (n : NodeId) (v : Int) : Except CompError Unit := if v = 0 then .error (.div0 n) else .ok ()

/-! ### The nodes, in evaluation order -/

/-- The temperature stage (R236): B5 and T. -/
def compTemperature (i : CompInput) : Except CompError (Int × Int) := do
  let t1 ← nodeS .t1 (i.ut - i.ac6)
  let t2 ← nodeS .t2 (t1 * i.ac5)
  let x1 := sar t2 15
  let t3 ← nodeS .t3 (i.mc * 2048)
  let t4 ← nodeS .t4 (x1 + i.md)
  divisor .t4 t4
  let t5 ← nodeS .t5 (t3.tdiv t4)
  let t6 ← nodeS .t6 (x1 + t5)
  let t7 ← nodeS .t7 (t6 + 8)
  pure (t6, sar t7 4)

/-- Pressure stage, part 1 (R237): B6, the shared term s12, and B3. -/
def compB3 (i : CompInput) (oss : Nat) (b5 : Int) : Except CompError (Int × Int × Int) := do
  let b6 ← nodeS .p1 (b5 - 4000)
  let p2 ← nodeS .p2 (b6 * b6)
  let s12 := sar p2 12
  let p3 ← nodeS .p3 (i.b2 * s12)
  let p4 ← nodeS .p4 (i.ac2 * b6)
  let x3 ← nodeS .p5 (sar p3 11 + sar p4 11)
  let p6 ← nodeS .p6 (i.ac1 * 4)
  let p7 ← nodeS .p7 (p6 + x3)
  let p8 ← nodeS .p8 (p7 * 2 ^ oss)
  let p9 ← nodeS .p9 (p8 + 2)
  pure (b6, s12, sar p9 2)

/-- Pressure stage, part 2 (R238): B4 and B7. -/
def compB4B7 (i : CompInput) (oss : Nat) (b6 s12 b3 : Int) : Except CompError (Int × Int) := do
  let p10 ← nodeS .p10 (i.ac3 * b6)
  let p11 ← nodeS .p11 (i.b1 * s12)
  let p12 ← nodeS .p12 (sar p10 13 + sar p11 16)
  let p13 ← nodeS .p13 (p12 + 2)
  let p14 ← nodeU .p14 (sar p13 2 + 32768)
  let p15 ← nodeU .p15 (i.ac4 * p14)
  let p16 ← nodeU .p16 (i.up - b3)
  let p17 ← nodeU .p17 (p16 * sar 50000 oss)
  pure (sar p15 15, p17)

/-- Pressure stage, part 3 (R239): the base pressure, with the preserved branch on B7. P18 has no check of its own; its
value is checked at P20 (R272; log 14). -/
def compBase (b4 b7 : Int) : Except CompError Int := do
  divisor .p18 b4
  let p ← if b7 < 0x80000000 then pure ((b7 * 2) / b4) else nodeU .p19 ((b7 / b4) * 2)
  nodeS .p20 p

/-- The second-order correction (R240): P. -/
def compCorrect (p : Int) : Except CompError Int := do
  let p21 ← nodeS .p21 (sar p 8 * sar p 8)
  let p22 ← nodeS .p22 (p21 * 3038)
  let p23 ← nodeS .p23 (-7357 * p)
  let p24 ← nodeS .p24 (sar p22 16 + sar p23 16)
  let p25 ← nodeS .p25 (p24 + 3791)
  nodeS .p26 (p + sar p25 4)

/-- `comp(cal, ut, up, oss)` (R230): the temperature in 0.1 °C and the pressure in Pa, or the first failing node. It is a pure
function, and clamps nothing (R242). -/
def comp (i : CompInput) (oss : Nat) : Except CompError (Int × Int) := do
  let (b5, t) ← compTemperature i
  let (b6, s12, b3) ← compB3 i oss b5
  let (b4, b7) ← compB4B7 i oss b6 s12 b3
  let p ← compBase b4 b7
  let pFinal ← compCorrect p
  pure (t, pFinal)

/-! ### COMPENSATE -/

/-- The thirteen inputs of the state, none if any of them is `none` (R12, R243). Each calibration word is read with the
signedness of its field (R38), `ut` and `up` unsigned (R39). -/
def State.compInput (s : State) : Option CompInput := do
  let ac1 ← s.cal.ac1
  let ac2 ← s.cal.ac2
  let ac3 ← s.cal.ac3
  let ac4 ← s.cal.ac4
  let ac5 ← s.cal.ac5
  let ac6 ← s.cal.ac6
  let b1 ← s.cal.b1
  let b2 ← s.cal.b2
  let mb ← s.cal.mb
  let mc ← s.cal.mc
  let md ← s.cal.md
  let ut ← s.ut
  let up ← s.up
  pure {
    ac1 := CalField.ac1.value ac1, ac2 := CalField.ac2.value ac2, ac3 := CalField.ac3.value ac3,
    ac4 := CalField.ac4.value ac4, ac5 := CalField.ac5.value ac5, ac6 := CalField.ac6.value ac6,
    b1 := CalField.b1.value b1, b2 := CalField.b2.value b2, mb := CalField.mb.value mb,
    mc := CalField.mc.value mc, md := CalField.md.value md,
    ut := (ut.toNat : Int), up := (up.toNat : Int) }

/-- The result and the error code an outcome of the calculator is stored as (R42, R243). The calculator's integers are s32, so
their 32-bit patterns lose nothing (log 18). -/
def compResult : Except CompError (Int × Int) → ErrCode × Result
  | .ok (t, p) => (.none, .ok (BitVec.ofInt 32 t) (BitVec.ofInt 32 p))
  | .error (.div0 n) => (.compDiv0, .err .compDiv0 (.node n))
  | .error (.ovf n) => (.compOvf, .err .compOvf (.node n))

/-- Store an outcome of the calculator. -/
def State.setCompResult (s : State) (c : ErrCode × Result) : State :=
  { s with errCode := c.1, result := some c.2 }

/-- `compensate()` (R243). -/
def compensate (s : State) : Except Fault State :=
  if !s.begun then .error .notBegun
  else if !s.step.resting then .error .busy
  else match s.compInput with
    | none => .error .unpopulated
    | some i => .ok (s.setCompResult (compResult (comp i s.cfg.oss.toNat)))

/-- COMPENSATE (R243). -/
def execCompensate (s : State) : Host.Outcome State Fault Refusal :=
  invoke s do
    let t ← compensate s
    pure (t.returning (.result t.result))

end Sys2Proof.Machine
end

