-- ==== Sys2Proof/Machine/ByteRead.lean ====
section
/-! DEFINITION. The byte read sub-machine (R160): RLOAD and RSTEP. The procedures `rload` and `rstep` are the ones the
Sequencer runs without the host guard. -/

namespace Sys2Proof.Machine

/-- `rload(send_nack, succ)` (R161). -/
def rload (sendNack : Bool) (succ : Phase) (s : State) : Except Fault State :=
  if !s.engineIdle then .error .engineBusy
  else .ok (s.setR ⟨.priming, 0, 0, sendNack, succ⟩)

/-- RSTEP in R_PRIMING: release the data line (R162). -/
def readPrime (s : State) : State :=
  (s.emit (.sda true)).setR { s.r with state := .reading, bits := 8 }

/-- What a read bit step leaves in `r_bits` (R163): one less. Where it is 0 already, which no run reaches (R48), no rule gives
a value and the result is free (log 12). -/
def readCountAfter (s : State) : Fin 9 :=
  if s.r.bits = 0 then Config.readCountUnderflow s.env.drawn else countDown s.r.bits

/-- The read shift register after a sampled bit: shifted left, the bit ORed in (R31, R163). -/
def shiftIn (byte : Byte) (b : Bit) : Byte := (byte <<< 1) ||| BitVec.setWidth 8 (BitVec.ofBool b)

/-- The slot a finished byte goes to, by the choice made at the load (R163, R168). -/
def slotState (nack : Bool) : RState := if nack then .sendNack else .sendAck

/-- RSTEP in R_READING: clock in one bit (R163). -/
def readBit (s : State) : State :=
  let t := s.emitAll clockHigh
  let b := t.sampleBit
  let bits := readCountAfter s
  (t.sample.emit (.scl false)).setR
    { s.r with
      state := if bits = 0 then slotState s.r.nack else .reading
      byte := shiftIn s.r.byte b
      bits := bits }

/-- RSTEP in R_SEND_ACK (R164). -/
def readSendAck (s : State) : State :=
  ((s.emitAll sendAckWave).setR { s.r with state := .idle }).setPhase s.r.succ

/-- RSTEP in R_SEND_NACK (R165). -/
def readSendNack (s : State) : State :=
  ((s.emitAll sendNackWave).setR { s.r with state := .idle }).setPhase s.r.succ

/-- `rstep()` (R162 to R166). -/
def rstep (s : State) : Except Fault (State × RReturn) :=
  match s.r.state with
  | .idle => .error .notLoaded
  | .priming => .ok (readPrime s, .inProgress)
  | .reading => .ok (readBit s, .inProgress)
  | .sendAck => .ok (readSendAck s, .complete)
  | .sendNack => .ok (readSendNack s, .complete)

/-- RLOAD (R161). -/
def execRload (sendNack : Bool) (succ : Phase) (s : State) : Host.Outcome State Fault Refusal :=
  invoke s do
    hostGuard s
    let t ← rload sendNack succ s
    pure (t.returning .nothing)

/-- RSTEP (R162 to R166). -/
def execRstep (s : State) : Host.Outcome State Fault Refusal :=
  invoke s do
    hostGuard s
    let (t, r) ← rstep s
    pure (t.returning (.rstep r))

end Sys2Proof.Machine
end

