-- ==== Sys2Proof/Machine/ByteWrite.lean ====
section
/-! DEFINITION. The byte write sub-machine (R140): WLOAD and WSTEP. The procedures `wload` and `wstep` are the ones the
Sequencer runs without the host guard. -/

namespace Sys2Proof.Machine

/-- `wload(byte, succ, err)` (R141). -/
def wload (byte : Byte) (succ err : Phase) (s : State) : Except Fault State :=
  if !s.engineIdle then .error .engineBusy
  else .ok (s.setW ⟨.shift, byte, 8, succ, err⟩)

/-- WSTEP in W_SHIFT with a bit left: send the most significant bit and shift left (R142). -/
def writeBit (s : State) : State :=
  let bits := countDown s.w.bits
  (s.emitAll (writeBitWave (s.w.byte.getLsbD 7))).setW
    { s.w with state := if bits = 0 then .ackCheck else .shift, byte := s.w.byte <<< 1, bits := bits }

/-- The acknowledge check (R143): release the line, sample in the ninth pulse, and assign the continuation (R146). -/
def ackCheck (s : State) : State × WReturn :=
  let t := s.emitAll ackCheckWave
  let a := t.sampleBit
  ((((t.sample.emit (.scl false)).setAck a).setW { s.w with state := .idle }).setPhase (s.w.continuation a),
    ackReturn a)

/-- `wstep()` (R142 to R145). -/
def wstep (s : State) : Except Fault (State × WReturn) :=
  match s.w.state with
  | .idle => .error .notLoaded
  | .shift => if s.w.bits = 0 then .ok (ackCheck s) else .ok (writeBit s, .inProgress)
  | .ackCheck => .ok (ackCheck s)

/-- WLOAD (R141). -/
def execWload (byte : Byte) (succ err : Phase) (s : State) : Host.Outcome State Fault Refusal :=
  invoke s do
    hostGuard s
    let t ← wload byte succ err s
    pure (t.returning .nothing)

/-- WSTEP (R142 to R145). -/
def execWstep (s : State) : Host.Outcome State Fault Refusal :=
  invoke s do
    hostGuard s
    let (t, r) ← wstep s
    pure (t.returning (.wstep r))

end Sys2Proof.Machine
end

