-- ==== Sys2Proof/Machine/Sequencer.lean ====
section
/-! DEFINITION. The Acquisition Sequencer: ASTART (R183) and SEQSTEP (R184 to R199). -/

namespace Sys2Proof.Machine

/-! ### ASTART -/

/-- The fields an acquisition starts from (R183). The CalibrationSet is cleared because CACHE_CAL is false (R206). -/
def State.clearAcquisition (s : State) : State :=
  { s with
    step := .readDeviceId, phase := .start, idx := 0, buf := RxBuffer.empty, devId := none,
    cal := Calibration.empty, ut := none, up := none, failStep := none, failPhase := none,
    errCode := .none, result := none }

/-- `astart()` (R183). -/
def astart (s : State) : Except Fault State :=
  if !s.begun then .error .notBegun
  else if !s.step.resting then .error .busy
  else if !s.engineIdle then .error .engineBusy
  else if s.lines ≠ ⟨some true, some true⟩ then .error .busNotIdle
  else .ok s.clearAcquisition

/-- ASTART (R183). -/
def execAstart (s : State) : Host.Outcome State Fault Refusal :=
  invoke s do
    let t ← astart s
    pure (t.returning .nothing)

/-! ### SEQSTEP -/

/-- The conditions under which `check_consistent()` raises F_INVALID_PHASE, in the numbering of R196. -/
def inconsistent (row : StepRow) (s : State) : Bool :=
  (!row.isWait && s.phase == .idle)
  || (row.isWait && (s.phase != .idle || !s.engineIdle))
  || (s.phase == .writeData && !row.isWrite)
  || ((s.phase == .restart || s.phase == .addressR || s.phase == .read) && !row.isRead)
  || ((s.phase == .start || s.phase == .restart || s.phase == .stop || s.phase == .stopFail) && !s.engineIdle)
  || ((s.phase == .addressW || s.phase == .registerSelect || s.phase == .writeData || s.phase == .addressR)
      && s.r.state != .idle)
  || (s.phase == .read && s.w.state != .idle)
  || (s.phase == .read && s.r.state == .idle && decide (row.count ≤ s.idx.val))

/-- Phase START (R185). -/
def phaseStart (s : State) : Except Fault State := do
  let t ← startCondition s
  pure (t.setPhase .addressW)

/-- `write_phase(byte, succ)` (R186): load when idle, one step, and on a NACK record the step and the phase served. -/
def writePhase (byte : Byte) (succ : Phase) (s : State) : Except Fault State := do
  let t ← if s.w.state = .idle then wload byte succ .stopFail s else pure s
  let (u, res) ← wstep t
  pure (if res = .nack then u.recordFail s.step s.phase else u)

/-- Phase ADDRESS_W (R187). -/
def phaseAddressW (s : State) : Except Fault State := writePhase (addrWByte s.cfg) .registerSelect s

/-- Phase REGISTER_SELECT (R188). -/
def phaseRegisterSelect (row : StepRow) (s : State) : Except Fault State :=
  match row with
  | .read reg _ _ => writePhase reg .restart s
  | .write reg _ => writePhase reg .writeData s
  | .wait _ => .error .invalidPhase

/-- Phase WRITE_DATA (R189): in a trigger step only. -/
def phaseWriteData (row : StepRow) (s : State) : Except Fault State :=
  match row with
  | .write _ cmd => writePhase cmd .stop s
  | .read _ _ _ => .error .invalidPhase
  | .wait _ => .error .invalidPhase

/-- Phase RESTART (R190). -/
def phaseRestart (s : State) : Except Fault State := do
  let t ← startCondition s
  pure (t.setPhase .addressR)

/-- Phase ADDRESS_R (R191). -/
def phaseAddressR (s : State) : Except Fault State := writePhase (addrRByte s.cfg) .read s

/-- Store a completed byte: `buf[idx] <- r_byte; idx <- idx + 1` (R192). With `idx` = 3, which no run reaches, there is no such
element (log 13). -/
def storeByte (s : State) : Except Fault State :=
  match s.buf.set s.idx.val s.r.byte with
  | some b => .ok { s with buf := b, idx := s.idx + 1 }
  | none => .error .invalidPhase

/-- Phase READ (R192): every byte but the last is acknowledged and continues in READ; the last is not and continues in
STOP. -/
def phaseRead (row : StepRow) (s : State) : Except Fault State := do
  let last := decide (s.idx.val + 1 = row.count)
  let t ← if s.r.state = .idle then rload last (if last then .stop else .read) s else pure s
  let (u, res) ← rstep t
  if res = .complete then storeByte u else pure u

/-- `commit(step)` (R194): the target field, whole, from the bytes of the transaction. -/
def commit (row : StepRow) (s : State) : Except Fault State :=
  match row with
  | .write _ _ => .ok s
  | .wait _ => .ok s
  | .read _ _ .devId =>
    match s.buf.b0 with
    | some h => .ok { s with devId := some h }
    | none => .error .unpopulated
  | .read _ _ (.cal f) =>
    match s.buf.b0, s.buf.b1 with
    | some h, some l => .ok { s with cal := s.cal.set f (asm16 h l) }
    | _, _ => .error .unpopulated
  | .read _ _ .ut =>
    match s.buf.b0, s.buf.b1 with
    | some h, some l => .ok { s with ut := some (asm16 h l) }
    | _, _ => .error .unpopulated
  | .read _ _ .up =>
    match s.buf.b0, s.buf.b1, s.buf.b2 with
    | some h, some m, some l => .ok { s with up := some (assembleUp s.cfg.oss h m l) }
    | _, _, _ => .error .unpopulated

/-- The phase a logical step is entered in (R193). -/
def entryPhase : Step → Phase
  | .waitT1 => .idle
  | .waitT2 => .idle
  | .done => .idle
  | _ => .start

/-- Enter a logical step: `step`, `phase` and `idx` (R193, R199). -/
def State.enter (s : State) (st : Step) (p : Phase) : State :=
  { s with step := st, phase := p, idx := 0 }

/-- Phase STOP (R193): stop, commit, and the next logical step. -/
def phaseStop (row : StepRow) (s : State) : Except Fault State := do
  let t ← stopCondition s
  let u ← commit row t
  match s.step.next with
  | some nxt => pure (u.enter nxt (entryPhase nxt))
  | none => .error .invalidPhase

/-- Phase STOP_FAIL (R195): stop, and the acquisition fails with BUS_ACK. Nothing is committed. -/
def phaseStopFail (s : State) : Except Fault State := do
  let t ← stopCondition s
  pure { t with step := .failed, phase := .idle, errCode := .busAck }

/-- `wait_step()` (R199). -/
def waitStep (sleep : BusEvent) (s : State) : Except Fault State :=
  match s.step.next with
  | some nxt => .ok ((s.emit sleep).enter nxt .start)
  | none => .error .invalidPhase

/-- The dispatch of R184, on the step's kind and then on the phase. `check_consistent()` has ruled out IDLE. -/
def seqDispatch (row : StepRow) (s : State) : Except Fault State :=
  match row with
  | .wait sleep => waitStep sleep s
  | row =>
    match s.phase with
    | .idle => .error .invalidPhase
    | .start => phaseStart s
    | .addressW => phaseAddressW s
    | .registerSelect => phaseRegisterSelect row s
    | .writeData => phaseWriteData row s
    | .restart => phaseRestart s
    | .addressR => phaseAddressR s
    | .read => phaseRead row s
    | .stop => phaseStop row s
    | .stopFail => phaseStopFail s

/-- What SEQSTEP returns (R208). -/
def Step.seqReturn : Step → SeqReturn
  | .done => .done
  | .failed => .failed
  | _ => .running

/-- `seqstep()` (R184). The steps without a row are IDLE, DONE and FAILED. -/
def seqstep (s : State) : Except Fault (State × SeqReturn) :=
  if !s.begun then .error .notBegun
  else match stepRow s.cfg s.step with
    | none => .error .noAcquisition
    | some row =>
      if inconsistent row s then .error .invalidPhase
      else do
        let t ← seqDispatch row s
        pure (t, t.step.seqReturn)

/-- SEQSTEP (R184). -/
def execSeqstep (s : State) : Host.Outcome State Fault Refusal :=
  invoke s do
    let (t, r) ← seqstep s
    pure (t.returning (.seqstep r))

end Sys2Proof.Machine
end

