-- ==== Sys2Proof/Machine/Acquire.lean ====
section
/-! DEFINITION. ACQUIRE (R204): one whole acquisition as one atomic operation. -/

namespace Sys2Proof.Machine

/-- The most SEQSTEPs an acquisition takes (R205; log 15). -/
def acquireBound : Nat := 760

/-- The loop of R204: SEQSTEP until it returns other than RUNNING, at most `n` times. -/
def acquireLoop : Nat → State → Except Fault State
  | 0, s => .ok s
  | n + 1, s =>
    match seqstep s with
    | .error f => .error f
    | .ok (t, .running) => acquireLoop n t
    | .ok (t, .done) => .ok t
    | .ok (t, .failed) => .ok t

/-- The failed acquisition's result: `Err(BUS_ACK, (fail_step, fail_phase))` (R204, R271). -/
def State.setBusError (s : State) : State :=
  { s with result := some (.err .busAck (.bus s.failStep s.failPhase)) }

/-- `acquire()` (R204). -/
def acquireOp (s : State) : Except Fault State := do
  let t ← astart s
  let u ← acquireLoop acquireBound t
  if u.step = .failed then pure u.setBusError else compensate u

/-- ACQUIRE (R204). -/
def execAcquire (s : State) : Host.Outcome State Fault Refusal :=
  invoke s do
    let t ← acquireOp s
    pure (t.returning (.result t.result))

end Sys2Proof.Machine
end

