-- ==== Sys2Proof/Machine/Bus.lean ====
section
/-! DEFINITION. The non-incremental operations of the Bus Transport Engine: BEGIN, START, STOP. -/

namespace Sys2Proof.Machine

/-- `BEGIN()` (R125). -/
def beginLines (s : State) : Except Fault State :=
  if !s.step.resting then .error .busy
  else if !s.engineIdle then .error .engineBusy
  else .ok { s.emitAll beginWave with begun := true }

/-- BEGIN (R125): both lines idle-high. -/
def execBegin (s : State) : Host.Outcome State Fault Refusal :=
  invoke s do
    let t ← beginLines s
    pure (t.returning .nothing)

/-- START (R126), which is also the repeated start (R127). -/
def execStart (s : State) : Host.Outcome State Fault Refusal :=
  invoke s do
    hostGuard s
    let t ← startCondition s
    pure (t.returning .nothing)

/-- STOP (R128). -/
def execStop (s : State) : Host.Outcome State Fault Refusal :=
  invoke s do
    hostGuard s
    let t ← stopCondition s
    pure (t.returning .nothing)

end Sys2Proof.Machine
end

