-- ==== Sys2Proof/Machine/BusItems.lean ====
section
/-! DEFINITION. The bus patterns of the opcode table (R81 to R85) as the engine moves them over the bus: a byte is its eight
data pulses, an acknowledge slot the ninth. R101 writes a transaction as a stream of these. DESIGN CHOICE (log 4): R102
gives the core no operation for them, and each is built here from the operations it has. -/

namespace Sys2Proof.Machine

/-- Run a write step `n` times. -/
def wsteps : Nat → State → Except Fault (State × WReturn)
  | 0, s => .ok (s, .inProgress)
  | n + 1, s => do
    let (t, _) ← wstep s
    wsteps n t

/-- Run a read step `n` times. -/
def rsteps : Nat → State → Except Fault (State × RReturn)
  | 0, s => .ok (s, .inProgress)
  | n + 1, s => do
    let (t, _) ← rstep s
    rsteps n t

/-- A byte the core sends: loaded with its continuations, then its eight bit steps (R141, R142), up to the acknowledge
slot. The error continuation is the Sequencer's (R186). It returns what its last bit step returns, IN_PROGRESS: R95 lists no return for
a bus pattern (DESIGN CHOICE, log 4). -/
def sendByte (byte : Byte) (succ : Phase) (s : State) : Except Fault State := do
  hostGuard s
  let t ← wload byte succ .stopFail s
  let (u, r) ← wsteps 8 t
  pure (u.returning (.wstep r))

/-- The environment has line values ready before those it had. -/
def State.answerNext (s : State) (bs : List Bit) : State :=
  { s with env := { s.env with answers := bs ++ s.env.answers } }

/-- The bits of a byte in wire order, MSB first (R63). -/
def wireBits (d : Byte) : List Bit :=
  [d.getLsbD 7, d.getLsbD 6, d.getLsbD 5, d.getLsbD 4, d.getLsbD 3, d.getLsbD 2, d.getLsbD 1, d.getLsbD 0]

/-- A byte the sensor drives (R85): after an RLOAD, the priming step and eight bit steps that sample it (R162, R163). Without an
RLOAD there is no choice of slot yet (R307), and the read is not loaded (R166; log 17). It returns what its last bit step returns,
IN_PROGRESS: R95 lists no return for a bus pattern (DESIGN CHOICE, log 4). -/
def receiveByte (d : Byte) (s : State) : Except Fault State := do
  hostGuard s
  if s.r.state = .priming then
    let (t, r) ← rsteps 9 (s.answerNext (wireBits d))
    pure (t.returning (.rstep r))
  else if s.engineIdle then .error .notLoaded
  else .error .engineBusy

/-- The acknowledge slot (R84): after a byte the core wrote, the core samples it with the line at `v` (R143, R144); after a byte it
read, the core drives it, as the choice made at the load says (R164, R165). A slot that is not next is no slot (log 17). It returns what
that step returns, ACK or NACK of a write and COMPLETE of a read: R95 lists no return for a bus pattern (DESIGN CHOICE, log 4). -/
def ackSlot (v : Bit) (s : State) : Except Fault State := do
  hostGuard s
  if s.w.state = .ackCheck ∨ (s.w.state = .shift ∧ s.w.bits = 0) then
    let (t, r) ← wstep (s.answerNext [v])
    pure (t.returning (.wstep r))
  else if s.r.state = slotState v then
    let (t, r) ← rstep s
    pure (t.returning (.rstep r))
  else if s.engineIdle then .error .notLoaded
  else .error .engineBusy

/-- The success continuation of a register byte (R188): the control register is the one written, every other is read (R70, R182;
log 16). -/
def registerContinuation (c : Cfg) (r : Byte) : Phase := if r = c.regCtrl then .writeData else .restart

/-- ADDR_W (R81, R187): the write-mode address byte. An address other than CFG.DEV_ADDR7, which is not well formed, is sent all the
same (DESIGN CHOICE, log 22). -/
def execAddrW (a : BitVec 7) (s : State) : Host.Outcome State Fault Refusal :=
  invoke s (sendByte (addressByte a false) .registerSelect s)

/-- ADDR_R (R81, R191): the read-mode address byte. An address other than CFG.DEV_ADDR7, which is not well formed, is sent all the
same (DESIGN CHOICE, log 22). -/
def execAddrR (a : BitVec 7) (s : State) : Host.Outcome State Fault Refusal :=
  invoke s (sendByte (addressByte a true) .read s)

/-- REG_SELECT (R82, R188): the register byte. A register outside R82's list, which is not well formed, is sent all the same (DESIGN
CHOICE, log 22). -/
def execRegSelect (r : Byte) (s : State) : Host.Outcome State Fault Refusal :=
  invoke s (sendByte r (registerContinuation s.cfg r) s)

/-- CMD_TEMP (R83, R189): the temperature command byte, as the table fixes it (log 21). -/
def execCmdTemp (s : State) : Host.Outcome State Fault Refusal :=
  invoke s (sendByte 0x2E .stop s)

/-- CMD_PRES (R83, R189): the pressure command byte, as the table fixes it (log 21). -/
def execCmdPres (o : BitVec 2) (s : State) : Host.Outcome State Fault Refusal :=
  invoke s (sendByte (presByte o) .stop s)

/-- DATA (R85): a data byte the sensor drives. -/
def execData (d : Byte) (s : State) : Host.Outcome State Fault Refusal :=
  invoke s (receiveByte d s)

/-- ACK (R84): the slot with the line low. -/
def execAck (s : State) : Host.Outcome State Fault Refusal :=
  invoke s (ackSlot false s)

/-- NACK (R84): the slot with the line high. -/
def execNack (s : State) : Host.Outcome State Fault Refusal :=
  invoke s (ackSlot true s)

end Sys2Proof.Machine
end

