-- ==== Sys2Proof/Machine/Dispatch.lean ====
section
/-! DEFINITION. One arm for each instruction of the opcode table. -/

namespace Sys2Proof.Machine

def exec (i : Instr) (s : State) : Host.Outcome State Fault Refusal :=
  match i with
  | .beginBus => Sys2Proof.Machine.execBegin s
  | .start => Sys2Proof.Machine.execStart s
  | .stop => Sys2Proof.Machine.execStop s
  | .wload byte succ err => Sys2Proof.Machine.execWload byte succ err s
  | .wstep => Sys2Proof.Machine.execWstep s
  | .rload sendNack succ => Sys2Proof.Machine.execRload sendNack succ s
  | .rstep => Sys2Proof.Machine.execRstep s
  | .astart => Sys2Proof.Machine.execAstart s
  | .seqstep => Sys2Proof.Machine.execSeqstep s
  | .compensate => Sys2Proof.Machine.execCompensate s
  | .acquire => Sys2Proof.Machine.execAcquire s
  | .addrW a => Sys2Proof.Machine.execAddrW a s
  | .addrR a => Sys2Proof.Machine.execAddrR a s
  | .regSelect r => Sys2Proof.Machine.execRegSelect r s
  | .cmdTemp => Sys2Proof.Machine.execCmdTemp s
  | .cmdPres o => Sys2Proof.Machine.execCmdPres o s
  | .data d => Sys2Proof.Machine.execData d s
  | .ack => Sys2Proof.Machine.execAck s
  | .nack => Sys2Proof.Machine.execNack s

end Sys2Proof.Machine
end

