-- ==== Sys2Proof/Machine/Step.lean ====
section
/-! DEFINITION. One step of the machine: the oldest word the host has invoked is decoded and run. -/

namespace Sys2Proof.Machine

/-- One step. A word that spells no instruction is refused before anything else is checked (R96, R277). With no word
invoked, nothing happens (R276). -/
def step (s : State) : Host.Outcome State Fault Refusal :=
  match s.fetch with
  | none => .next s
  | some (w, t) =>
    match decode w with
    | .ok i => exec i t
    | .error _ => .next t.refuse

/-- The host invokes the word whose bits are `w` in the format of `nbits` bits, before any other it has waiting: the very next
step runs it (log 3). -/
def State.withFetchWord (s : State) (nbits w : Nat) : State := s.invokeFirst (tableWord nbits w)

end Sys2Proof.Machine
end

