-- ==== Sys2Proof/Machine/Pseudo.lean ====
section
/-! DEFINITION. Running several operations in order, the pseudo-operations of R100, and the assembler text of R99. -/

namespace Sys2Proof.Machine

/-- Run operations in order, as the host invokes them one after another (R72). -/
def execAll : List Instr → State → Host.Outcome State Fault Refusal
  | [], s => .next s
  | i :: is, s =>
    match exec i s with
    | .next t => execAll is t
    | .fault f => .fault f
    | .refused r => .refused r

/-- `WRITE_BYTE b, s, e`: WLOAD and nine WSTEPs (R100). -/
def writeByteOps (byte : Byte) (succ err : Phase) : List Instr := .wload byte succ err :: List.replicate 9 .wstep

/-- `READ_BYTE k, s`: RLOAD and ten RSTEPs (R100). -/
def readByteOps (sendNack : Bool) (succ : Phase) : List Instr := .rload sendNack succ :: List.replicate 10 .rstep

/-- `RUN`: SEQSTEP until it returns DONE or FAILED (R100), at most `n` times. It stops at a mark too: no later SEQSTEP would do
anything (R274). -/
def runSeq : Nat → State → Host.Outcome State Fault Refusal
  | 0, s => .next s
  | n + 1, s =>
    match exec .seqstep s with
    | .next t => if t.marked || t.step.resting then .next t else runSeq n t
    | .fault f => .fault f
    | .refused r => .refused r

/-! ### Assembler text (R99) -/

/-- A hexadecimal digit. -/
def hexDigit (n : Nat) : String := String.singleton (Nat.digitChar n)

/-- A byte in C hexadecimal, in capitals. -/
def hexByte (b : Byte) : String := "0x" ++ (hexDigit (b.toNat / 16) ++ hexDigit (b.toNat % 16)).toUpper

/-- A phase's name in R86. -/
def phaseName : Phase → String
  | .idle => "IDLE"
  | .start => "START"
  | .addressW => "ADDRESS_W"
  | .registerSelect => "REGISTER_SELECT"
  | .writeData => "WRITE_DATA"
  | .restart => "RESTART"
  | .addressR => "ADDRESS_R"
  | .read => "READ"
  | .stop => "STOP"
  | .stopFail => "STOP_FAIL"

/-- One operation's line, for the eleven operations of R90. The bus patterns have no assembler syntax. -/
def asmLine (i : Instr) : Option String :=
  match i with
  | .wload byte succ err =>
    some (i.row.mnemonic ++ " " ++ hexByte byte ++ ", " ++ phaseName succ ++ ", " ++ phaseName err)
  | .rload sendNack succ =>
    some (i.row.mnemonic ++ " " ++ (if sendNack then "NACK" else "ACK") ++ ", " ++ phaseName succ)
  | .beginBus | .start | .stop | .wstep | .rstep | .astart | .seqstep | .compensate | .acquire =>
    some i.row.mnemonic
  | .addrW _ | .addrR _ | .regSelect _ | .cmdTemp | .cmdPres _ | .data _ | .ack | .nack => none

end Sys2Proof.Machine
end

