-- ==== Sys2Proof/Machine/Status.lean ====
section
/-! DEFINITION. The state codes of R87 to R89, the return codes of R95, and the host's status view S0 to S11 (R45). -/

namespace Sys2Proof.Machine

/-- The 5-bit step code (R87). -/
def Step.code : Step → BitVec 5
  | .idle => 0
  | .readDeviceId => 1
  | .readAC1 => 2
  | .readAC2 => 3
  | .readAC3 => 4
  | .readAC4 => 5
  | .readAC5 => 6
  | .readAC6 => 7
  | .readB1 => 8
  | .readB2 => 9
  | .readMB => 10
  | .readMC => 11
  | .readMD => 12
  | .triggerTemp => 13
  | .waitT1 => 14
  | .readUT => 15
  | .triggerPressure => 16
  | .waitT2 => 17
  | .readUP => 18
  | .done => 19
  | .failed => 20

/-- The 2-bit code of `w_state` (R88). -/
def WState.code : WState → BitVec 2
  | .idle => 0
  | .shift => 1
  | .ackCheck => 2

/-- The 3-bit code of `r_state` (R88). -/
def RState.code : RState → BitVec 3
  | .idle => 0
  | .priming => 1
  | .reading => 2
  | .sendNack => 3
  | .sendAck => 4

/-- The numbers of the step returns (R95). -/
def WReturn.code : WReturn → Nat
  | .inProgress => 0
  | .ack => 1
  | .nack => 2

def RReturn.code : RReturn → Nat
  | .inProgress => 0
  | .complete => 1

def SeqReturn.code : SeqReturn → Nat
  | .running => 0
  | .done => 1
  | .failed => 2

/-- What the host may read (R45), with the codes as numbers. It can write none of it. -/
structure StatusView where
  s0Cfg       : Cfg
  s1Step      : BitVec 5
  s2Phase     : BitVec 4
  s3Write     : BitVec 2 × BitVec 4 × Byte × BitVec 4 × BitVec 4
  s4Read      : BitVec 3 × BitVec 4 × Byte × Bool × BitVec 4
  s5LastAck   : Option Bit
  s6ErrCode   : BitVec 8
  s7Fail      : Option (BitVec 5) × Option (BitVec 4)
  s8Result    : Option Result
  s9Cal       : Calibration
  s9Raw       : Option (BitVec 16) × Option (BitVec 19)
  s9DevId     : Option Byte
  s9Idx       : BitVec 2
  s9Buf       : RxBuffer
  s10Lines    : Option Bit × Option Bit × Bool
  s11Marks    : Option Fault × Bool
deriving DecidableEq, Repr

/-- The status view of a state (R45). -/
def State.status (s : State) : StatusView where
  s0Cfg     := s.cfg
  s1Step    := s.step.code
  s2Phase   := s.phase.code
  s3Write   := (s.w.state.code, BitVec.ofNat 4 s.w.bits.val, s.w.byte, s.w.succ.code, s.w.err.code)
  s4Read    := (s.r.state.code, BitVec.ofNat 4 s.r.bits.val, s.r.byte, s.r.nack, s.r.succ.code)
  s5LastAck := s.lastAck
  s6ErrCode := s.errCode.code
  s7Fail    := (s.failStep.map Step.code, s.failPhase.map Phase.code)
  s8Result  := s.result
  s9Cal     := s.cal
  s9Raw     := (s.ut, s.up)
  s9DevId   := s.devId
  s9Idx     := BitVec.ofNat 2 s.idx.val
  s9Buf     := s.buf
  s10Lines  := (s.lines.scl, s.lines.sda, s.begun)
  s11Marks  := (s.fault, s.refused)

end Sys2Proof.Machine
end

