-- ==== Sys2Proof/Machine/Timing.lean ====
section
/-! DEFINITION. What the spec says of time (R313 to R316). The model has no time (R6): nothing in the machine reads this. -/

namespace Sys2Proof.Machine

/-- The least duration of an event under a configuration (R8, R123, R199, R290): only waits take time. -/
def BusEvent.leastTime (c : Cfg) : BusEvent → Nat
  | .half => c.tHalf
  | .sleepT1 => c.t1Wait
  | .sleepT2 => c.t2Wait
  | .scl _ => 0
  | .sda _ => 0
  | .sample _ => 0

/-- The least time a trace takes (R316), the core's own execution time left out (R315). -/
def leastTime (c : Cfg) (es : List BusEvent) : Nat := (es.map (BusEvent.leastTime c)).sum

/-- The kinds of event a trace count tells apart (R205, R313). -/
def BusEvent.isHalf : BusEvent → Bool
  | .half => true
  | _ => false

def BusEvent.isScl : BusEvent → Bool
  | .scl _ => true
  | _ => false

def BusEvent.isSda : BusEvent → Bool
  | .sda _ => true
  | _ => false

def BusEvent.isSample : BusEvent → Bool
  | .sample _ => true
  | _ => false

def BusEvent.isSleep : BusEvent → Bool
  | .sleepT1 => true
  | .sleepT2 => true
  | _ => false

end Sys2Proof.Machine
end

