-- ==== Sys2Proof/Safety.lean ====
section
/-! DEFINITION. The terms claims use: when the host may act, what a finished run is and what is observed of it (R291), and the
invariants of R48. -/

namespace Sys2Proof.Machine

/-! ### When operations are admitted -/

/-- No fault and no refusal is recorded: the premise of every claim (R274). -/
abbrev State.Clear (s : State) : Prop := s.fault = none ∧ s.refused = false

/-- The host may use the engine (R131): BEGIN has run and no acquisition is in flight. -/
abbrev State.HostMay (s : State) : Prop := s.Clear ∧ s.begun = true ∧ s.step.resting = true

/-- Both sub-machines are idle. -/
abbrev State.EngineIdle (s : State) : Prop := s.w.state = .idle ∧ s.r.state = .idle

/-- The engine is free for the host. -/
abbrev State.Free (s : State) : Prop := s.HostMay ∧ s.EngineIdle

/-- The bus is idle: both lines released. -/
abbrev State.BusIdle (s : State) : Prop := s.lines = ⟨some true, some true⟩

/-- ASTART is admitted (R183). -/
abbrev State.MayAcquire (s : State) : Prop := s.Free ∧ s.BusIdle

/-- SEQSTEP is admitted in a step with this row, in this phase (R184). -/
abbrev State.InStep (s : State) (row : StepRow) (p : Phase) : Prop :=
  s.Clear ∧ s.begun = true ∧ stepRow s.cfg s.step = some row ∧ row.isWait = false ∧ s.phase = p

/-- One of the eleven operations of R90, as against a bus pattern. -/
def isOperation : Instr → Bool
  | .beginBus | .start | .stop | .wload _ _ _ | .wstep | .rload _ _ | .rstep | .astart | .seqstep | .compensate
  | .acquire => true
  | .addrW _ | .addrR _ | .regSelect _ | .cmdTemp | .cmdPres _ | .data _ | .ack | .nack => false

/-! ### The end of a run (R291) -/

/-- The run has ended: the last operation has returned (an operation is one step, so none invoked is left to run), no mark is
recorded, no acquisition is in flight, and no byte is unfinished. -/
abbrev State.Ended (s : State) : Prop := s.pending = [] ∧ s.Clear ∧ s.step.resting = true ∧ s.EngineIdle

/-- What is observed of an ended run. -/
structure Observation where
  result    : Option Result
  errCode   : ErrCode
  failStep  : Option Step
  failPhase : Option Phase
  cal       : Calibration
  ut        : Option (BitVec 16)
  up        : Option (BitVec 19)
  devId     : Option Byte
  lines     : Lines
  trace     : List BusEvent
deriving DecidableEq, Repr

/-- The observation of a state. -/
def State.observation (s : State) : Observation where
  result    := s.result
  errCode   := s.errCode
  failStep  := s.failStep
  failPhase := s.failPhase
  cal       := s.cal
  ut        := s.ut
  up        := s.up
  devId     := s.devId
  lines     := s.lines
  trace     := s.trace

/-! ### Invariants (R48) -/

/-- Invariants 1 to 5 of R48: the sub-machines' counters, and that at most one of them is busy. -/
abbrev EngineInv (s : State) : Prop :=
  (s.w.state = .shift → 1 ≤ s.w.bits.val ∧ s.w.bits.val ≤ 8)
  ∧ (s.w.state = .ackCheck → s.w.bits = 0)
  ∧ (s.r.state = .reading → 1 ≤ s.r.bits.val ∧ s.r.bits.val ≤ 8)
  ∧ (s.r.state = .sendAck ∨ s.r.state = .sendNack → s.r.bits = 0)
  ∧ (s.w.state = .idle ∨ s.r.state = .idle)

/-- A step's place in the order of R181. -/
def Step.rank (st : Step) : Nat := st.code.toNat

/-- Every field the steps before this one read is populated (R48.8, R68, R279). -/
abbrev PopulatedBefore (n : Nat) (s : State) : Prop :=
  (1 < n → s.devId.isSome)
  ∧ (2 < n → s.cal.ac1.isSome) ∧ (3 < n → s.cal.ac2.isSome) ∧ (4 < n → s.cal.ac3.isSome)
  ∧ (5 < n → s.cal.ac4.isSome) ∧ (6 < n → s.cal.ac5.isSome) ∧ (7 < n → s.cal.ac6.isSome)
  ∧ (8 < n → s.cal.b1.isSome) ∧ (9 < n → s.cal.b2.isSome) ∧ (10 < n → s.cal.mb.isSome)
  ∧ (11 < n → s.cal.mc.isSome) ∧ (12 < n → s.cal.md.isSome)
  ∧ (15 < n → s.ut.isSome) ∧ (18 < n → s.up.isSome)

/-- The success continuation of the byte a write phase sends (R187 to R191). -/
def writeContinuation (row : StepRow) : Phase → Phase
  | .addressW => .registerSelect
  | .registerSelect => if row.isWrite then .writeData else .restart
  | .writeData => .stop
  | .addressR => .read
  | .idle | .start | .restart | .read | .stop | .stopFail => .idle

/-- The phases that send a byte. -/
def isWritePhase : Phase → Bool
  | .addressW | .registerSelect | .writeData | .addressR => true
  | .idle | .start | .restart | .read | .stop | .stopFail => false

/-- The state of an acquisition in flight, in a step with this row: its phase fits the step (R196), the bytes counted by `idx` are
received, the continuations are the table's, and the bus is idle where a transaction has not begun. -/
abbrev FlightInv (row : StepRow) (s : State) : Prop :=
  s.begun = true
  ∧ inconsistent row s = false
  ∧ PopulatedBefore s.step.rank s
  ∧ (s.phase = .idle ∨ s.phase = .start → s.BusIdle ∧ s.idx.val = 0)
  ∧ (isWritePhase s.phase = true ∨ s.phase = .restart → s.idx.val = 0)
  ∧ s.idx.val ≤ row.count
  ∧ (s.phase = .stop → s.idx.val = row.count)
  ∧ (0 < s.idx.val → s.buf.b0.isSome) ∧ (1 < s.idx.val → s.buf.b1.isSome) ∧ (2 < s.idx.val → s.buf.b2.isSome)
  ∧ (s.w.state ≠ .idle → s.w.succ = writeContinuation row s.phase ∧ s.w.err = .stopFail)
  ∧ (s.r.state ≠ .idle → s.idx.val < row.count ∧ s.r.nack = decide (s.idx.val + 1 = row.count)
      ∧ s.r.succ = if s.idx.val + 1 = row.count then .stop else .read)
  ∧ (s.phase = .stopFail → s.failStep = some s.step ∧ s.failPhase.any isWritePhase = true)

/-- The Sequencer's invariant: an acquisition in flight is in one of its legal states, and a finished one has all its fields
(R48.6 to R48.8, R196). -/
abbrev SequencerInv (s : State) : Prop :=
  (match stepRow s.cfg s.step with
    | some row => FlightInv row s
    | none => True)
  ∧ (s.step = .done → PopulatedBefore Step.done.rank s)

/-- All invariants of the machine. -/
abbrev MachineInv (s : State) : Prop := EngineInv s ∧ SequencerInv s

/-! ### What a claim says of a whole byte, a whole transaction or an interval of the trace -/

/-- The events of a byte written, MSB first, up to its acknowledge slot (R148). -/
def byteWave (v : Byte) : List BusEvent := (wireBits v).flatMap writeBitWave

/-- The events of an acknowledge check that samples `a` (R143). -/
def ackSlotWave (a : Bit) : List BusEvent := ackCheckWave ++ [.sample a, .scl false]

/-- The events of sampled data bits (R163). -/
def readWave (bs : List Bit) : List BusEvent := bs.flatMap fun b => clockHigh ++ [.sample b, .scl false]

/-- The events of the data bytes of a register read: every byte but the last is answered with ACK (R101, R192). -/
def dataWave : List Byte → List BusEvent
  | [] => []
  | [d] => .sda true :: readWave (wireBits d) ++ sendNackWave
  | d :: e :: ds => .sda true :: readWave (wireBits d) ++ sendAckWave ++ dataWave (e :: ds)

/-- The events of a whole register read, every slot acknowledged (R101, R197). -/
def readTransaction (c : Cfg) (reg : Byte) (ds : List Byte) : List BusEvent :=
  startWave ++ byteWave (addrWByte c) ++ ackSlotWave false ++ byteWave reg ++ ackSlotWave false
    ++ startWave ++ byteWave (addrRByte c) ++ ackSlotWave false ++ dataWave ds ++ stopWave

/-- The events of a whole command write, every slot acknowledged (R101, R198). -/
def writeTransaction (c : Cfg) (reg cmd : Byte) : List BusEvent :=
  startWave ++ byteWave (addrWByte c) ++ ackSlotWave false ++ byteWave reg ++ ackSlotWave false
    ++ byteWave cmd ++ ackSlotWave false ++ stopWave

/-- The byte a write phase of a step sends and its success continuation (R187 to R189, R191). -/
def writeItem (c : Cfg) (row : StepRow) : Phase → Option (Byte × Phase)
  | .addressW => some (addrWByte c, .registerSelect)
  | .registerSelect =>
    match row with
    | .read reg _ _ => some (reg, .restart)
    | .write reg _ => some (reg, .writeData)
    | .wait _ => none
  | .writeData =>
    match row with
    | .write _ cmd => some (cmd, .stop)
    | .read _ _ _ => none
    | .wait _ => none
  | .addressR =>
    match row with
    | .read _ _ _ => some (addrRByte c, .read)
    | .write _ _ => none
    | .wait _ => none
  | .idle | .start | .restart | .read | .stop | .stopFail => none

/-- The target field of a read step holds the bytes `ds` assembled as R194 says. -/
def Target.holds (tg : Target) (ds : List Byte) (s : State) : Prop :=
  match tg, ds with
  | .devId, [h] => s.devId = some h
  | .cal f, [h, l] => s.cal.get f = some (asm16 h l)
  | .ut, [h, l] => s.ut = some (asm16 h l)
  | .up, [h, m, l] => s.up = some (assembleUp s.cfg.oss h m l)
  | _, _ => False

/-- The three acknowledged slots of a transaction's bytes (R101, R210). -/
def slotsAcknowledged : List Bit := [false, false, false]

/-- What the environment answers in a successful acquisition: every slot acknowledged, and the data bytes MSB first, in the order of
R210. -/
def acquisitionAnswers (id : Byte) (cal : List (Byte × Byte)) (ut : Byte × Byte) (up : Byte × Byte × Byte) : List Bit :=
  slotsAcknowledged ++ wireBits id
    ++ cal.flatMap (fun w => slotsAcknowledged ++ wireBits w.1 ++ wireBits w.2)
    ++ slotsAcknowledged
    ++ slotsAcknowledged ++ wireBits ut.1 ++ wireBits ut.2
    ++ slotsAcknowledged
    ++ slotsAcknowledged ++ wireBits up.1 ++ wireBits up.2.1 ++ wireBits up.2.2

/-- The CalibrationSet in register order (R182). -/
def Calibration.inOrder (c : Calibration) : List (Option (BitVec 16)) :=
  [c.ac1, c.ac2, c.ac3, c.ac4, c.ac5, c.ac6, c.b1, c.b2, c.mb, c.mc, c.md]

/-- The events of a successful acquisition, transaction by transaction, in the order of R210: the registers and commands of R182, the
data bytes received, and the two waits. -/
def acquisitionEvents (c : Cfg) (id : Byte) (cal : List (Byte × Byte)) (ut : Byte × Byte) (up : Byte × Byte × Byte) :
    List BusEvent :=
  readTransaction c c.regId [id]
    ++ (List.zipWith (fun offset w => readTransaction c (c.regCal0 + offset) [w.1, w.2])
        ([0, 2, 4, 6, 8, 10, 12, 14, 16, 18, 20] : List Byte) cal).flatten
    ++ writeTransaction c c.regCtrl c.cmdTemp ++ [.sleepT1] ++ readTransaction c c.regOut [ut.1, ut.2]
    ++ writeTransaction c c.regCtrl c.cmdPres ++ [.sleepT2] ++ readTransaction c c.regOut [up.1, up.2.1, up.2.2]

/-- An event without what the environment drew: what is left is the core's own (R207). -/
def BusEvent.own : BusEvent → BusEvent
  | .sample _ => .sample false
  | .scl v => .scl v
  | .sda v => .sda v
  | .half => .half
  | .sleepT1 => .sleepT1
  | .sleepT2 => .sleepT2

/-- How many HALF, SCL, SDA, SAMPLE and SLEEP events a list holds (R197, R198, R205). -/
structure EventCounts where
  half   : Nat
  scl    : Nat
  sda    : Nat
  sample : Nat
  sleep  : Nat
deriving DecidableEq, Repr

def eventCounts (es : List BusEvent) : EventCounts :=
  ⟨es.countP BusEvent.isHalf, es.countP BusEvent.isScl, es.countP BusEvent.isSda, es.countP BusEvent.isSample,
    es.countP BusEvent.isSleep⟩

/-- `n` SEQSTEPs, one after another. -/
def seqsteps (n : Nat) (s : State) : Host.Outcome State Fault Refusal := execAll (List.replicate n .seqstep) s

/-- The lines are what the trace's last SCL and SDA events set (R22). -/
abbrev LinesInv (s : State) : Prop := s.lines = s.trace.foldl Lines.after ⟨none, none⟩

/-- The data line is released while the read sub-machine samples or is about to answer (R121, R130). -/
abbrev ReleasedInv (s : State) : Prop :=
  s.r.state = .reading ∨ s.r.state = .sendAck ∨ s.r.state = .sendNack → s.lines.sda = some true

end Sys2Proof.Machine
end

