-- ==== Sys2Proof/WellFormed.lean ====
section
/-! DEFINITION. Which instructions are well formed under a configuration. The operand types already rule out reserved
Phase codes (R97); what is left to check is that a bus pattern is one the core itself sends (R81 to R83, R98). -/

namespace Sys2Proof

/-- The register bytes the core sends: the list of R82. -/
def Cfg.registersSent (c : Cfg) : List Byte :=
  [c.regId, c.regCal0, c.regCal0 + 2, c.regCal0 + 4, c.regCal0 + 6, c.regCal0 + 8, c.regCal0 + 10, c.regCal0 + 12,
   c.regCal0 + 14, c.regCal0 + 16, c.regCal0 + 18, c.regCal0 + 20, c.regCtrl, c.regOut]

/-- An operation of R90 is always well formed. A bus pattern is, if it is a byte or slot of the core's own transactions
(R98): the device address is `DEV_ADDR7` (R81), the register is one of R82, and the command is the configuration's own (R83).
The table fixes the command rows' bytes to the defaults, so under a configuration with other command bytes those rows are not
well formed (DESIGN CHOICE, log 21). The machine does not ask this: a row that is not well formed runs, and sends its byte (DESIGN
CHOICE, log 22). -/
def Instr.wf (c : Cfg) : Instr → Bool
  | .beginBus | .start | .stop | .wload _ _ _ | .wstep | .rload _ _ | .rstep | .astart | .seqstep | .compensate
  | .acquire => true
  | .addrW a => a == c.devAddr7
  | .addrR a => a == c.devAddr7
  | .regSelect r => c.registersSent.contains r
  | .cmdTemp => c.cmdTemp == 0x2E
  | .cmdPres o => o == c.oss && c.cmdPres == o ++ (0x34 : BitVec 6)
  | .data _ => true
  | .ack => true
  | .nack => true

end Sys2Proof
end

