-- ==== Sys2Proof/Certificates/Slice0/Obligations.lean ====
section
/-! DEFINITION. The statements for the provers. Each docstring names the rule or the log entry it rests on. -/

open Sys2Proof Sys2Proof.Machine

/-! ### Encoding -/

/-- R80 to R86, R90 to R93: decoding and encoding are inverse to each other, on every word and every instruction. The place
of a byte in its transaction is the model's choice (log 5), and so is that the command rows are the table's bytes under every
configuration (log 21). -/
def Obligations.DecodeInvertsEncode : Prop :=
  ∀ (x : Word) (i : Instr), decode x = .ok i ↔ encode i = x

/-- R93: the nine operations without operands have the words listed, and any other low 20 bits are refused. -/
def Obligations.OperandlessWords : Prop :=
  (decode (.opw24 0x100000) = .ok .beginBus ∧ decode (.opw24 0x200000) = .ok .start
    ∧ decode (.opw24 0x300000) = .ok .stop ∧ decode (.opw24 0x500000) = .ok .wstep
    ∧ decode (.opw24 0x700000) = .ok .rstep ∧ decode (.opw24 0x800000) = .ok .astart
    ∧ decode (.opw24 0x900000) = .ok .seqstep ∧ decode (.opw24 0xA00000) = .ok .compensate
    ∧ decode (.opw24 0xB00000) = .ok .acquire)
  ∧ ∀ w : BitVec 24, (w.extractLsb' 20 4).toNat ∈ [1, 2, 3, 5, 7, 8, 9, 10, 11] → w.extractLsb' 0 20 ≠ 0 →
      ∃ e, decode (.opw24 w) = .error e

/-- R86, R91, R92: the operands of WLOAD and RLOAD are the fields named, the other bits are 0, the ten phases have the codes 0 to 9 of
R86 and no other code is a phase's, and the rules' example words decode as they say. -/
def Obligations.OperandFields : Prop :=
  (∀ (w : BitVec 24) (byte : Byte) (succ err : Phase), (w.extractLsb' 20 4).toNat = 4 →
    (decode (.opw24 w) = .ok (.wload byte succ err) ↔
      w.extractLsb' 0 8 = byte ∧ w.extractLsb' 16 4 = succ.code ∧ w.extractLsb' 12 4 = err.code
        ∧ w.extractLsb' 8 4 = 0))
  ∧ (∀ (w : BitVec 24) (sendNack : Bool) (succ : Phase), (w.extractLsb' 20 4).toNat = 6 →
    (decode (.opw24 w) = .ok (.rload sendNack succ) ↔
      (sendNack = true ↔ w.extractLsb' 8 1 = 1) ∧ w.extractLsb' 16 4 = succ.code
        ∧ w.extractLsb' 9 7 = 0 ∧ w.extractLsb' 0 8 = 0))
  ∧ (Phase.code .idle = 0 ∧ Phase.code .start = 1 ∧ Phase.code .addressW = 2 ∧ Phase.code .registerSelect = 3
    ∧ Phase.code .writeData = 4 ∧ Phase.code .restart = 5 ∧ Phase.code .addressR = 6 ∧ Phase.code .read = 7
    ∧ Phase.code .stop = 8 ∧ Phase.code .stopFail = 9)
  ∧ (∀ c : BitVec 4, 10 ≤ c.toNat → phaseOfCode c = none)
  ∧ decode (.opw24 0x4390EE) = .ok (.wload 0xEE .registerSelect .stopFail)
  ∧ decode (.opw24 0x680100) = .ok (.rload true .stop) ∧ decode (.opw24 0x670000) = .ok (.rload false .read)

/-- R96: a 24-bit word is refused in exactly the cases of the rule. What a refused word does to the state is
`MarksAreSticky`. -/
def Obligations.RefusedWordsExactly : Prop :=
  ∀ w : BitVec 24,
    (∃ e, decode (.opw24 w) = .error e) ↔
      (w.extractLsb' 20 4).toNat ∈ [0, 12, 13, 14, 15]
      ∨ ((w.extractLsb' 20 4).toNat ∈ [1, 2, 3, 5, 7, 8, 9, 10, 11] ∧ w.extractLsb' 0 20 ≠ 0)
      ∨ ((w.extractLsb' 20 4).toNat = 4 ∧ w.extractLsb' 8 4 ≠ 0)
      ∨ ((w.extractLsb' 20 4).toNat = 6 ∧ (w.extractLsb' 9 7 ≠ 0 ∨ w.extractLsb' 0 8 ≠ 0))
      ∨ 10 ≤ (w.extractLsb' 16 4).toNat ∨ 10 ≤ (w.extractLsb' 12 4).toNat

/-- R81 to R85: a few bus bytes and both slots, written out from the rules, decode to their rows. The place given with a byte is
the model's choice (log 5), and so is that the command rows are the table's bytes under every configuration (log 21). -/
def Obligations.BusPatternSamples : Prop :=
  decode (.bus8 .address 0xEE) = .ok (.addrW 0x77) ∧ decode (.bus8 .address 0xEF) = .ok (.addrR 0x77)
  ∧ decode (.bus8 .register 0xD0) = .ok (.regSelect 0xD0) ∧ decode (.bus8 .command 0x2E) = .ok .cmdTemp
  ∧ decode (.bus8 .command 0x34) = .ok (.cmdPres 0) ∧ decode (.bus8 .command 0xF4) = .ok (.cmdPres 3)
  ∧ decode (.bus8 .data 0x55) = .ok (.data 0x55) ∧ decode (.ack1 false) = .ok .ack
  ∧ decode (.ack1 true) = .ok .nack

/-! ### The machine's step, marks and frames -/

/-- A step runs the decoded word the host invoked first, and does nothing where none is invoked; a word placed by
`withFetchWord` is the one the next step runs. The queue is the model's (log 3). -/
def Obligations.StepRunsDecoded : Prop :=
  (∀ (s : State) (x : Word) (rest : List Word) (i : Instr), s.pending = x :: rest → decode x = .ok i →
    step s = exec i { s with pending := rest })
  ∧ (∀ s : State, s.pending = [] → step s = .next s)
  ∧ (∀ (s : State) (nbits w : Nat) (i : Instr), decodeTableWord nbits w = some i →
      step (s.withFetchWord nbits w) = exec i s)

/-- R44, R96, R274: a refused word sets the refusal mark and changes nothing else but the queue it came from; once a fault or a
refusal is recorded, no operation changes anything, and no step clears or replaces a recorded fault. Marks in a next state are the
model's reading (log 1, log 2). -/
def Obligations.MarksAreSticky : Prop :=
  (∀ (s : State) (x : Word) (rest : List Word) (e : DecodeError), s.pending = x :: rest → decode x = .error e →
    step s = .next { s with pending := rest, refused := true })
  ∧ (∀ (i : Instr) (s : State), s.fault ≠ none ∨ s.refused = true → exec i s = .next s)
  ∧ ∀ (s t : State), s.fault ≠ none → step s = .next t →
      t = { s with pending := t.pending, refused := t.refused }

/-- R23: before the first BEGIN, every operation but BEGIN raises F_NOT_BEGUN (log 1). For the bus patterns that is the model's
choice (log 4). -/
def Obligations.NotBegunFaults : Prop :=
  ∀ (i : Instr) (s : State), i ≠ .beginBus → s.Clear → s.begun = false → exec i s = .next (s.raise .notBegun)

/-- R209, R131: while an acquisition is in flight, everything but SEQSTEP raises F_BUSY (log 1). For the bus patterns that is the
model's choice (log 4). -/
def Obligations.InFlightOnlySeqstep : Prop :=
  ∀ (i : Instr) (s : State), i ≠ .seqstep → s.Clear → s.begun = true → s.step.resting = false →
    exec i s = .next (s.raise .busy)

/-- R46: an operation writes `fault` alone, or the fields its row of the table lists (and the model's own `ret` and `env`). The
rows of the bus patterns are the model's (log 4). -/
def Obligations.OperationFrames : Prop :=
  ∀ (i : Instr) (s t : State), exec i s = .next t →
    t = { s with fault := t.fault } ∨
    match i with
    | .beginBus => t = { s with lines := t.lines, begun := t.begun, trace := t.trace, ret := t.ret }
    | .start => t = { s with lines := t.lines, trace := t.trace, ret := t.ret }
    | .stop => t = { s with lines := t.lines, trace := t.trace, ret := t.ret }
    | .wload _ _ _ => t = { s with w := t.w, ret := t.ret }
    | .wstep =>
      t = { s with
        w := { s.w with state := t.w.state, byte := t.w.byte, bits := t.w.bits }
        lastAck := t.lastAck, phase := t.phase, lines := t.lines, trace := t.trace, env := t.env, ret := t.ret }
    | .rload _ _ => t = { s with r := t.r, ret := t.ret }
    | .rstep =>
      t = { s with
        r := { s.r with state := t.r.state, byte := t.r.byte, bits := t.r.bits }
        phase := t.phase, lines := t.lines, trace := t.trace, env := t.env, ret := t.ret }
    | .astart =>
      t = { s with
        step := t.step, phase := t.phase, idx := t.idx, buf := t.buf, devId := t.devId, cal := t.cal, ut := t.ut
        up := t.up, failStep := t.failStep, failPhase := t.failPhase, errCode := t.errCode, result := t.result
        ret := t.ret }
    | .seqstep =>
      t = { s with
        w := t.w, r := t.r, lastAck := t.lastAck, lines := t.lines, trace := t.trace, step := t.step
        phase := t.phase, idx := t.idx, buf := t.buf, devId := t.devId, cal := t.cal, ut := t.ut, up := t.up
        failStep := t.failStep, failPhase := t.failPhase, errCode := t.errCode, env := t.env, ret := t.ret }
    | .compensate => t = { s with errCode := t.errCode, result := t.result, ret := t.ret }
    | .acquire =>
      t = { s with
        w := t.w, r := t.r, lastAck := t.lastAck, lines := t.lines, trace := t.trace, step := t.step
        phase := t.phase, idx := t.idx, buf := t.buf, devId := t.devId, cal := t.cal, ut := t.ut, up := t.up
        failStep := t.failStep, failPhase := t.failPhase, errCode := t.errCode, result := t.result
        env := t.env, ret := t.ret }
    | .addrW _ => t = { s with w := t.w, lines := t.lines, trace := t.trace, ret := t.ret }
    | .addrR _ => t = { s with w := t.w, lines := t.lines, trace := t.trace, ret := t.ret }
    | .regSelect _ => t = { s with w := t.w, lines := t.lines, trace := t.trace, ret := t.ret }
    | .cmdTemp => t = { s with w := t.w, lines := t.lines, trace := t.trace, ret := t.ret }
    | .cmdPres _ => t = { s with w := t.w, lines := t.lines, trace := t.trace, ret := t.ret }
    | .data _ => t = { s with r := t.r, lines := t.lines, trace := t.trace, env := t.env, ret := t.ret }
    | .ack =>
      t = { s with
        w := t.w, r := t.r, lastAck := t.lastAck, phase := t.phase, lines := t.lines, trace := t.trace
        env := t.env, ret := t.ret }
    | .nack =>
      t = { s with
        w := t.w, r := t.r, lastAck := t.lastAck, phase := t.phase, lines := t.lines, trace := t.trace
        env := t.env, ret := t.ret }

/-- R8, R304: no step changes the configuration. -/
def Obligations.ConfigIsConstant : Prop :=
  ∀ s t : State, step s = .next t → t.cfg = s.cfg

/-- R43: the trace starts empty, and a step only appends to it. -/
def Obligations.TraceIsAppendOnly : Prop :=
  State.reset.trace = [] ∧ ∀ s t : State, step s = .next t → s.trace <+: t.trace

/-- R22: in every step the two line outputs stay what the last SCL and SDA events emitted set. -/
def Obligations.LinesHoldLastEmitted : Prop :=
  ∀ s t : State, LinesInv s → step s = .next t → LinesInv t

/-- R48, invariants 1 to 5: every step keeps them. -/
def Obligations.EngineInvariantKept : Prop :=
  ∀ s t : State, EngineInv s → step s = .next t → EngineInv t

/-- R121, R130: every step keeps the data line released while the read sub-machine samples or is about to answer. -/
def Obligations.DataLineReleasedForRead : Prop :=
  ∀ s t : State, EngineInv s → ReleasedInv s → step s = .next t → ReleasedInv t

/-- R48, R68, R196: every step keeps the engine's and the Sequencer's invariants. -/
def Obligations.MachineInvariantKept : Prop :=
  ∀ s t : State, MachineInv s → step s = .next t → MachineInv t

/-- The invariants hold in the reset state of every configuration. -/
def Obligations.InvariantsHoldAtReset : Prop :=
  ∀ c : Cfg, MachineInv (State.resetWith c) ∧ LinesInv (State.resetWith c) ∧ ReleasedInv (State.resetWith c)

/-- R300: the reset state, field by field, under the configuration given at construction. -/
def Obligations.ResetState : Prop :=
  ∀ (c : Cfg) (s : State), s = State.resetWith c →
    s.lines = ⟨none, none⟩ ∧ s.begun = false ∧ s.phase = .idle
    ∧ s.w.state = .idle ∧ s.w.byte = 0 ∧ s.w.bits = 0 ∧ s.w.succ = .idle ∧ s.w.err = .idle ∧ s.lastAck = none
    ∧ s.r.state = .idle ∧ s.r.byte = 0 ∧ s.r.bits = 0 ∧ s.r.nack = false ∧ s.r.succ = .idle
    ∧ s.step = .idle ∧ s.idx = 0 ∧ s.buf.b0 = none ∧ s.buf.b1 = none ∧ s.buf.b2 = none ∧ s.devId = none
    ∧ (∀ f : CalField, s.cal.get f = none) ∧ s.ut = none ∧ s.up = none
    ∧ s.failStep = none ∧ s.failPhase = none ∧ s.errCode.code = 0 ∧ s.result = none ∧ s.trace = []
    ∧ s.fault = none ∧ s.refused = false ∧ s.cfg = c

/-- R8, R300, R304: construction answers the reset state, or F_BAD_CONFIG where a constraint is broken. That OSS is 0 and
CACHE_CAL is false are the model's reading of R8's fixed values (log 10). -/
def Obligations.ConstructionChecksConfig : Prop :=
  ∀ c : Cfg,
    let legal := c.regCal0.toNat % 2 = 0 ∧ c.regCal0.toNat + 21 ≤ 0xFF ∧ c.regOut.toNat + 2 ≤ 0xFF
      ∧ c.sdaLine ≠ c.sclLine ∧ 0 < c.tHalf ∧ c.oss = 0 ∧ c.cacheCal = false
    (legal → State.construct c = .next (State.resetWith c)) ∧ (¬ legal → State.construct c = .fault .badConfig)

/-- R313: the HALF events each operation emits where it raises no fault. -/
def Obligations.HalfEventsPerOperation : Prop :=
  ∀ (i : Instr) (s t : State), isOperation i = true → i ≠ .acquire → s.Clear → exec i s = .next t → t.fault = none →
    (eventCounts t.trace).half = (eventCounts s.trace).half +
      (if i = .start ∨ i = .stop ∨ i = .wstep then 2
      else if i = .rstep then (if s.r.state = .priming then 0 else 2)
      else if i = .seqstep then
        (if s.step = .waitT1 ∨ s.step = .waitT2 then 0
        else if s.phase = .read ∧ (s.r.state = .idle ∨ s.r.state = .priming) then 0
        else 2)
      else 0)

/-! ### The Bus Transport Engine -/

/-- R125: BEGIN releases both lines, clock first, and sets `begun`, however often it runs; its two faults (log 1). -/
def Obligations.BeginEffect : Prop :=
  ∀ s : State, s.Clear →
    (s.step.resting = true → s.EngineIdle →
      exec .beginBus s = .next { s with
        lines := ⟨some true, some true⟩, trace := s.trace ++ [.scl true, .sda true], begun := true
        ret := .nothing })
    ∧ (s.step.resting = false → exec .beginBus s = .next (s.raise .busy))
    ∧ (s.step.resting = true → ¬ s.EngineIdle → exec .beginBus s = .next (s.raise .engineBusy))

/-- R126 to R128: the events START and STOP emit and the lines they leave; the fault with a sub-machine busy (log 1). -/
def Obligations.StartStopEffect : Prop :=
  ∀ s : State, s.HostMay →
    (s.EngineIdle →
      exec .start s = .next { s with
        lines := ⟨some false, some false⟩
        trace := s.trace ++ [.sda true, .scl true, .half, .sda false, .half, .scl false]
        ret := .nothing }
      ∧ exec .stop s = .next { s with
        lines := ⟨some true, some true⟩
        trace := s.trace ++ [.sda false, .scl true, .half, .sda true, .half]
        ret := .nothing })
    ∧ (¬ s.EngineIdle →
        exec .start s = .next (s.raise .engineBusy) ∧ exec .stop s = .next (s.raise .engineBusy))

/-- R141, R161: what WLOAD and RLOAD store; the fault with a sub-machine busy (log 1). -/
def Obligations.LoadEffect : Prop :=
  ∀ (s : State) (byte : Byte) (sendNack : Bool) (succ err : Phase), s.HostMay →
    (s.EngineIdle →
      exec (.wload byte succ err) s = .next { s with
        w := { state := .shift, byte := byte, bits := 8, succ := succ, err := err }, ret := .nothing }
      ∧ exec (.rload sendNack succ) s = .next { s with
        r := { state := .priming, byte := 0, bits := 0, nack := sendNack, succ := succ }, ret := .nothing })
    ∧ (¬ s.EngineIdle →
        exec (.wload byte succ err) s = .next (s.raise .engineBusy)
        ∧ exec (.rload sendNack succ) s = .next (s.raise .engineBusy))

/-- R142 to R144: a WSTEP with a bit left sends the most significant one, shifts the byte and counts down, and the eighth goes to the
acknowledge check; a WSTEP at the acknowledge check, or with no bit left, releases the data line, samples the draw `a`, and assigns
the continuation that `a` selects. -/
def Obligations.WstepEffect : Prop :=
  ∀ s : State, s.HostMay →
    (∀ n : Fin 9, s.w.state = .shift → s.w.bits.val = n.val + 1 →
      exec .wstep s = .next { s with
        lines := ⟨some false, some (s.w.byte.getLsbD 7)⟩
        trace := s.trace ++ [.sda (s.w.byte.getLsbD 7), .half, .scl true, .half, .scl false]
        w := { s.w with byte := s.w.byte <<< 1, bits := n, state := if n = 0 then .ackCheck else .shift }
        ret := .wstep .inProgress })
    ∧ (s.w.state = .ackCheck ∨ (s.w.state = .shift ∧ s.w.bits = 0) →
        ∃ a : Bit, exec .wstep s = .next { s with
          lines := ⟨some false, some true⟩
          trace := s.trace ++ [.sda true, .half, .scl true, .half, .sample a, .scl false]
          env := s.env.advance
          lastAck := some a
          w := { s.w with state := .idle }
          phase := if a then s.w.err else s.w.succ
          ret := .wstep (if a then .nack else .ack) })

/-- R162, R163: the priming RSTEP releases the data line and sets the bit count; an RSTEP that reads a bit samples the draw
`b` and shifts it in; the eighth selects the slot by `r_nack`. -/
def Obligations.RstepReadsBits : Prop :=
  ∀ s : State, s.HostMay →
    (s.r.state = .priming →
      exec .rstep s = .next { s with
        lines := ⟨s.lines.scl, some true⟩, trace := s.trace ++ [.sda true]
        r := { s.r with state := .reading, bits := 8 }, ret := .rstep .inProgress })
    ∧ ∀ n : Fin 9, s.r.state = .reading → s.r.bits.val = n.val + 1 →
        ∃ b : Bit, exec .rstep s = .next { s with
          lines := ⟨some false, s.lines.sda⟩
          trace := s.trace ++ [.half, .scl true, .half, .sample b, .scl false]
          env := s.env.advance
          r := { s.r with
            byte := (s.r.byte <<< 1) ||| (if b then 1 else 0), bits := n
            state := if n = 0 then (if s.r.nack then .sendNack else .sendAck) else .reading }
          ret := .rstep .inProgress }

/-- R164, R165: the two acknowledge slots of a read, as two distinct waveforms, and the continuation. -/
def Obligations.RstepAnswersByte : Prop :=
  ∀ s : State, s.HostMay →
    (s.r.state = .sendAck →
      exec .rstep s = .next { s with
        lines := ⟨some false, some true⟩
        trace := s.trace ++ [.sda false, .half, .scl true, .half, .scl false, .sda true]
        r := { s.r with state := .idle }, phase := s.r.succ, ret := .rstep .complete })
    ∧ (s.r.state = .sendNack →
        exec .rstep s = .next { s with
          lines := ⟨some false, some true⟩
          trace := s.trace ++ [.sda true, .half, .scl true, .half, .scl false]
          r := { s.r with state := .idle }, phase := s.r.succ, ret := .rstep .complete })

/-- R145, R166: a step of an idle sub-machine raises F_NOT_LOADED (log 1). -/
def Obligations.UnloadedStepFaults : Prop :=
  ∀ s : State, s.HostMay →
    (s.w.state = .idle → exec .wstep s = .next (s.raise .notLoaded))
    ∧ (s.r.state = .idle → exec .rstep s = .next (s.raise .notLoaded))

/-- R147, R148: a whole byte write is WLOAD and nine WSTEPs, the first eight in progress; the wire carries the byte MSB first. The
acknowledgement is the environment's next line value if it has one ready (log 6). -/
def Obligations.WriteByteWhole : Prop :=
  ∀ (s : State) (byte : Byte) (succ err : Phase), s.Free →
    (∃ a : Bit, (∀ b bs, s.env.answers = b :: bs → a = b) ∧
      execAll (writeByteOps byte succ err) s = .next { s with
        lines := ⟨some false, some true⟩
        trace := s.trace ++ byteWave byte ++ ackSlotWave a
        env := s.env.advance
        lastAck := some a
        w := { state := .idle, byte := 0, bits := 0, succ := succ, err := err }
        phase := if a then err else succ
        ret := .wstep (if a then .nack else .ack) })
    ∧ ∀ n < 8, ∃ t, execAll (.wload byte succ err :: List.replicate (n + 1) .wstep) s = .next t
        ∧ t.ret = .wstep .inProgress

/-- R167, R169: a whole byte read is RLOAD and ten RSTEPs, the first nine in progress; it has no error outcome, and the byte it
leaves is the bits sampled, the first one most significant. They are the environment's next line values if it has them ready
(log 6). -/
def Obligations.ReadByteWhole : Prop :=
  ∀ (s : State) (sendNack : Bool) (succ : Phase), s.Free →
    (∃ d : Byte, (∀ e bs, s.env.answers = wireBits e ++ bs → d = e) ∧
      execAll (readByteOps sendNack succ) s = .next { s with
        lines := ⟨some false, some true⟩
        trace := s.trace ++ [.sda true] ++ readWave (wireBits d) ++ (if sendNack then sendNackWave else sendAckWave)
        env := { s.env with answers := s.env.answers.drop 8, drawn := s.env.drawn + 8 }
        r := { state := .idle, byte := d, bits := 0, nack := sendNack, succ := succ }
        phase := succ
        ret := .rstep .complete })
    ∧ ∀ n < 9, ∃ t, execAll (.rload sendNack succ :: List.replicate (n + 1) .rstep) s = .next t
        ∧ t.ret = .rstep .inProgress

/-! ### The Sequencer -/

/-- R181: the chain of the logical steps by name, the two without a successor, and the successor's code in R87. -/
def Obligations.StepOrder : Prop :=
  (Step.next .idle = some .readDeviceId ∧ Step.next .readDeviceId = some .readAC1
    ∧ Step.next .readAC1 = some .readAC2 ∧ Step.next .readAC2 = some .readAC3 ∧ Step.next .readAC3 = some .readAC4
    ∧ Step.next .readAC4 = some .readAC5 ∧ Step.next .readAC5 = some .readAC6 ∧ Step.next .readAC6 = some .readB1
    ∧ Step.next .readB1 = some .readB2 ∧ Step.next .readB2 = some .readMB ∧ Step.next .readMB = some .readMC
    ∧ Step.next .readMC = some .readMD ∧ Step.next .readMD = some .triggerTemp
    ∧ Step.next .triggerTemp = some .waitT1 ∧ Step.next .waitT1 = some .readUT
    ∧ Step.next .readUT = some .triggerPressure ∧ Step.next .triggerPressure = some .waitT2
    ∧ Step.next .waitT2 = some .readUP ∧ Step.next .readUP = some .done)
  ∧ Step.next .done = none ∧ Step.next .failed = none
  ∧ ∀ st nxt : Step, st.next = some nxt → nxt.code.toNat = st.code.toNat + 1

/-- R45, R87 to R89, R95: what the host reads as S0 to S11, with the spec's numbers for the steps, the sub-machines' states, the error
codes and the step returns. -/
def Obligations.StatusView : Prop :=
  (∀ s : State,
    s.status.s0Cfg = s.cfg ∧ s.status.s1Step = s.step.code ∧ s.status.s2Phase = s.phase.code
    ∧ s.status.s3Write = (s.w.state.code, BitVec.ofNat 4 s.w.bits.val, s.w.byte, s.w.succ.code, s.w.err.code)
    ∧ s.status.s4Read = (s.r.state.code, BitVec.ofNat 4 s.r.bits.val, s.r.byte, s.r.nack, s.r.succ.code)
    ∧ s.status.s5LastAck = s.lastAck ∧ s.status.s6ErrCode = s.errCode.code
    ∧ s.status.s7Fail = (s.failStep.map Step.code, s.failPhase.map Phase.code) ∧ s.status.s8Result = s.result
    ∧ s.status.s9Cal = s.cal ∧ s.status.s9Raw = (s.ut, s.up) ∧ s.status.s9DevId = s.devId
    ∧ s.status.s9Idx.toNat = s.idx.val ∧ s.status.s9Buf = s.buf
    ∧ s.status.s10Lines = (s.lines.scl, s.lines.sda, s.begun) ∧ s.status.s11Marks = (s.fault, s.refused))
  ∧ [Step.idle, .readDeviceId, .readAC1, .readAC2, .readAC3, .readAC4, .readAC5, .readAC6, .readB1, .readB2, .readMB,
      .readMC, .readMD, .triggerTemp, .waitT1, .readUT, .triggerPressure, .waitT2, .readUP, .done, .failed].map
        Step.code = [0, 1, 2, 3, 4, 5, 6, 7, 8, 9, 10, 11, 12, 13, 14, 15, 16, 17, 18, 19, 20]
  ∧ [WState.idle, .shift, .ackCheck].map WState.code = [0, 1, 2]
  ∧ [RState.idle, .priming, .reading, .sendNack, .sendAck].map RState.code = [0, 1, 2, 3, 4]
  ∧ [ErrCode.none, .busAck, .compDiv0, .compOvf].map ErrCode.code = [0, 1, 2, 3]
  ∧ [WReturn.inProgress, .ack, .nack].map WReturn.code = [0, 1, 2]
  ∧ [RReturn.inProgress, .complete].map RReturn.code = [0, 1]
  ∧ [SeqReturn.running, .done, .failed].map SeqReturn.code = [0, 1, 2]

/-- R183, R204: what ASTART clears and sets, and its four faults, which are ACQUIRE's too, in the order of its checks (log 1). -/
def Obligations.AstartEffect : Prop :=
  ∀ s : State, s.Clear →
    (s.MayAcquire →
      exec .astart s = .next { s with
        step := .readDeviceId, phase := .start, idx := 0, buf := ⟨none, none, none⟩, devId := none
        cal := Calibration.empty, ut := none, up := none, failStep := none, failPhase := none
        errCode := .none, result := none, ret := .nothing })
    ∧ ∀ i ∈ [Instr.astart, .acquire],
        (s.begun = false → exec i s = .next (s.raise .notBegun))
        ∧ (s.begun = true → s.step.resting = false → exec i s = .next (s.raise .busy))
        ∧ (s.begun = true → s.step.resting = true → ¬ s.EngineIdle → exec i s = .next (s.raise .engineBusy))
        ∧ (s.begun = true → s.step.resting = true → s.EngineIdle → ¬ s.BusIdle →
            exec i s = .next (s.raise .busNotIdle))

/-- R185, R190: SEQSTEP in the phases START and RESTART. -/
def Obligations.SeqstepStarts : Prop :=
  ∀ (s : State) (row : StepRow), s.EngineIdle →
    (s.InStep row .start →
      exec .seqstep s = .next { s with
        lines := ⟨some false, some false⟩
        trace := s.trace ++ [.sda true, .scl true, .half, .sda false, .half, .scl false]
        phase := .addressW, ret := .seqstep .running })
    ∧ (s.InStep row .restart → row.isRead = true →
        exec .seqstep s = .next { s with
          lines := ⟨some false, some false⟩
          trace := s.trace ++ [.sda true, .scl true, .half, .sda false, .half, .scl false]
          phase := .addressR, ret := .seqstep .running })

/-- R186 to R189, R191: SEQSTEP in a phase that sends a byte: the load and the first bit in one iteration, a further bit, and
the acknowledge check, which records the step and the phase on a NACK. -/
def Obligations.SeqstepWritesByte : Prop :=
  ∀ (s : State) (row : StepRow) (p succ : Phase) (byte : Byte), s.InStep row p →
    writeItem s.cfg row p = some (byte, succ) → s.r.state = .idle →
    (s.w.state = .idle →
      exec .seqstep s = .next { s with
        lines := ⟨some false, some (byte.getLsbD 7)⟩
        trace := s.trace ++ [.sda (byte.getLsbD 7), .half, .scl true, .half, .scl false]
        w := { state := .shift, byte := byte <<< 1, bits := 7, succ := succ, err := .stopFail }
        ret := .seqstep .running })
    ∧ (∀ n : Fin 9, s.w.state = .shift → s.w.bits.val = n.val + 1 →
        exec .seqstep s = .next { s with
          lines := ⟨some false, some (s.w.byte.getLsbD 7)⟩
          trace := s.trace ++ [.sda (s.w.byte.getLsbD 7), .half, .scl true, .half, .scl false]
          w := { s.w with byte := s.w.byte <<< 1, bits := n, state := if n = 0 then .ackCheck else .shift }
          ret := .seqstep .running })
    ∧ (s.w.state = .ackCheck ∨ (s.w.state = .shift ∧ s.w.bits = 0) →
        ∃ a : Bit, exec .seqstep s = .next { s with
          lines := ⟨some false, some true⟩
          trace := s.trace ++ [.sda true, .half, .scl true, .half, .sample a, .scl false]
          env := s.env.advance
          lastAck := some a
          w := { s.w with state := .idle }
          phase := if a then s.w.err else s.w.succ
          failStep := if a then some s.step else s.failStep
          failPhase := if a then some p else s.failPhase
          ret := .seqstep .running })

/-- R192: SEQSTEP in the phase READ: the load and the priming in one iteration, a bit, and the slot, which stores the whole
byte. -/
def Obligations.SeqstepReadsByte : Prop :=
  ∀ (s : State) (reg : Byte) (k : Nat) (tg : Target), s.InStep (.read reg k tg) .read → s.w.state = .idle →
    (s.r.state = .idle → s.idx.val < k →
      exec .seqstep s = .next { s with
        lines := ⟨s.lines.scl, some true⟩
        trace := s.trace ++ [.sda true]
        r := { state := .reading, byte := 0, bits := 8, nack := decide (s.idx.val + 1 = k)
               succ := if s.idx.val + 1 = k then .stop else .read }
        ret := .seqstep .running })
    ∧ (∀ n : Fin 9, s.r.state = .reading → s.r.bits.val = n.val + 1 →
        ∃ b : Bit, exec .seqstep s = .next { s with
          lines := ⟨some false, s.lines.sda⟩
          trace := s.trace ++ [.half, .scl true, .half, .sample b, .scl false]
          env := s.env.advance
          r := { s.r with
            byte := (s.r.byte <<< 1) ||| (if b then 1 else 0), bits := n
            state := if n = 0 then (if s.r.nack then .sendNack else .sendAck) else .reading }
          ret := .seqstep .running })
    ∧ (∀ buf : RxBuffer, s.r.state = .sendAck ∨ s.r.state = .sendNack →
        s.buf.set s.idx.val s.r.byte = some buf →
        exec .seqstep s = .next { s with
          lines := ⟨some false, some true⟩
          trace := s.trace ++ (if s.r.state = .sendNack then sendNackWave else sendAckWave)
          r := { s.r with state := .idle }
          phase := s.r.succ, buf := buf, idx := s.idx + 1
          ret := .seqstep .running })

/-- R193, R194: SEQSTEP in the phase STOP: one stop condition, the target field written whole from the buffer, and the next
logical step. -/
def Obligations.SeqstepStopCommits : Prop :=
  ∀ (s : State) (row : StepRow) (nxt : Step), s.InStep row .stop → s.EngineIdle → s.step.next = some nxt →
    let leaves := fun u : State =>
      exec .seqstep s = .next { u with
        lines := ⟨some true, some true⟩
        trace := s.trace ++ [.sda false, .scl true, .half, .sda true, .half]
        step := nxt, idx := 0
        phase := if nxt = .waitT1 ∨ nxt = .waitT2 ∨ nxt = .done then .idle else .start
        ret := .seqstep (if nxt = .done then .done else .running) }
    (row.isWrite = true → leaves s)
    ∧ (∀ reg n h, row = .read reg n .devId → s.buf.b0 = some h → leaves { s with devId := some h })
    ∧ (∀ reg n f h l, row = .read reg n (.cal f) → s.buf.b0 = some h → s.buf.b1 = some l →
        leaves { s with cal := s.cal.set f (asm16 h l) })
    ∧ (∀ reg n h l, row = .read reg n .ut → s.buf.b0 = some h → s.buf.b1 = some l →
        leaves { s with ut := some (asm16 h l) })
    ∧ (∀ reg n h m l, row = .read reg n .up → s.buf.b0 = some h → s.buf.b1 = some m → s.buf.b2 = some l →
        leaves { s with up := some (((h ++ m ++ l) >>> (8 - s.cfg.oss.toNat)).truncate 19) })

/-- R195: SEQSTEP in the phase STOP_FAIL: one stop condition, and the acquisition fails with BUS_ACK; nothing is committed. -/
def Obligations.SeqstepStopFail : Prop :=
  ∀ (s : State) (row : StepRow), s.InStep row .stopFail → s.EngineIdle →
    exec .seqstep s = .next { s with
      lines := ⟨some true, some true⟩
      trace := s.trace ++ [.sda false, .scl true, .half, .sda true, .half]
      step := .failed, phase := .idle, errCode := .busAck, ret := .seqstep .failed }

/-- R199: a wait step takes one SEQSTEP, which emits its SLEEP and enters the result read. -/
def Obligations.SeqstepWaits : Prop :=
  ∀ s : State, s.Clear → s.begun = true → s.phase = .idle → s.EngineIdle →
    (s.step = .waitT1 →
      exec .seqstep s = .next { s with
        trace := s.trace ++ [.sleepT1], step := .readUT, phase := .start, idx := 0, ret := .seqstep .running })
    ∧ (s.step = .waitT2 →
        exec .seqstep s = .next { s with
          trace := s.trace ++ [.sleepT2], step := .readUP, phase := .start, idx := 0, ret := .seqstep .running })

/-- R184, R196: SEQSTEP raises F_NO_ACQUISITION with no acquisition in flight, and F_INVALID_PHASE in each combination of the
rule's list (log 1). -/
def Obligations.SeqstepRejectsInconsistent : Prop :=
  (∀ s : State, s.Clear → s.begun = true → s.step.resting = true →
    exec .seqstep s = .next (s.raise .noAcquisition))
  ∧ ∀ (s : State) (row : StepRow), s.Clear → s.begun = true → stepRow s.cfg s.step = some row →
      ((row.isWait = false ∧ s.phase = .idle)
        ∨ (row.isWait = true ∧ (s.phase ≠ .idle ∨ ¬ s.EngineIdle))
        ∨ (s.phase = .writeData ∧ row.isWrite = false)
        ∨ ((s.phase = .restart ∨ s.phase = .addressR ∨ s.phase = .read) ∧ row.isRead = false)
        ∨ ((s.phase = .start ∨ s.phase = .restart ∨ s.phase = .stop ∨ s.phase = .stopFail) ∧ ¬ s.EngineIdle)
        ∨ ((s.phase = .addressW ∨ s.phase = .registerSelect ∨ s.phase = .writeData ∨ s.phase = .addressR)
            ∧ s.r.state ≠ .idle)
        ∨ (s.phase = .read ∧ s.w.state ≠ .idle)
        ∨ (s.phase = .read ∧ s.r.state = .idle ∧ row.count ≤ s.idx.val)) →
      exec .seqstep s = .next (s.raise .invalidPhase)

/-- R196, R204, R208: in a state that meets the machine's invariants, SEQSTEP during an acquisition raises no fault, and returns what
the step it reaches says. -/
def Obligations.SeqstepNeverFaults : Prop :=
  ∀ s : State, s.Clear → MachineInv s → s.step.resting = false →
    ∃ t, exec .seqstep s = .next t ∧ t.Clear
      ∧ t.ret = .seqstep (if t.step = .done then .done else if t.step = .failed then .failed else .running)

/-- R101, R197: a read step whose slots are acknowledged takes `30 + 10 N` SEQSTEPs and no fewer, emits exactly its transaction,
and fills its target with the bytes received. -/
def Obligations.ReadTransactionWhole : Prop :=
  ∀ (s : State) (reg : Byte) (n : Nat) (tg : Target) (ds : List Byte) (rest : List Bit),
    s.InStep (.read reg n tg) .start → s.EngineIdle → s.idx = 0 → ds.length = n →
    s.env.answers = [false, false, false] ++ ds.flatMap wireBits ++ rest →
    (∀ k < 30 + 10 * n, ∃ u, seqsteps k s = .next u ∧ u.Clear ∧ u.step = s.step)
    ∧ ∃ t, seqsteps (30 + 10 * n) s = .next t ∧ t.Clear ∧ s.step.next = some t.step ∧ tg.holds ds t
        ∧ t.trace = s.trace ++ readTransaction s.cfg reg ds
        ∧ eventCounts (readTransaction s.cfg reg ds) = ⟨60 + 18 * n, 59 + 18 * n, 32 + 3 * n, 3 + 8 * n, 0⟩
        ∧ t.BusIdle ∧ t.EngineIdle ∧ t.idx = 0 ∧ t.env.answers = rest

/-- R101, R198: a trigger step whose slots are acknowledged takes 29 SEQSTEPs and no fewer, and emits exactly its transaction. -/
def Obligations.TriggerTransactionWhole : Prop :=
  ∀ (s : State) (reg cmd : Byte) (rest : List Bit),
    s.InStep (.write reg cmd) .start → s.EngineIdle → s.env.answers = [false, false, false] ++ rest →
    (∀ k < 29, ∃ u, seqsteps k s = .next u ∧ u.Clear ∧ u.step = s.step)
    ∧ ∃ t, seqsteps 29 s = .next t ∧ t.Clear ∧ s.step.next = some t.step
        ∧ t.trace = s.trace ++ writeTransaction s.cfg reg cmd
        ∧ eventCounts (writeTransaction s.cfg reg cmd) = ⟨58, 57, 31, 3, 0⟩
        ∧ t.BusIdle ∧ t.EngineIdle ∧ t.idx = 0 ∧ t.env.answers = rest

/-- R278, R279: the failure path: the NACK'd acknowledge check of any byte the Sequencer sends, and then one stop condition and
nothing else, leaves FAILED with the record of where it failed. -/
def Obligations.FailurePathIsPrecise : Prop :=
  ∀ (s : State) (row : StepRow) (p : Phase) (rest : List Bit), s.InStep row p → (writeItem s.cfg row p).isSome →
    s.r.state = .idle → s.w.state = .ackCheck → s.w.err = .stopFail → s.env.answers = true :: rest →
    seqsteps 2 s = .next { s with
      lines := ⟨some true, some true⟩
      trace := s.trace ++ ackSlotWave true ++ stopWave
      env := s.env.advance
      lastAck := some true
      w := { s.w with state := .idle }
      phase := .idle, step := .failed, failStep := some s.step, failPhase := some p
      errCode := .busAck, ret := .seqstep .failed }

/-- R48 (6 and 7), R203: a SEQSTEP that enters a wait, DONE or FAILED has just issued a stop condition, and leaves the bus and both
sub-machines idle. -/
def Obligations.StopBeforeRest : Prop :=
  ∀ s t : State, s.Clear → exec .seqstep s = .next t → t.fault = none →
    t.step = .waitT1 ∨ t.step = .waitT2 ∨ t.step = .done ∨ t.step = .failed →
    t.trace = s.trace ++ stopWave ∧ t.BusIdle ∧ t.EngineIdle ∧ t.phase = .idle

/-! ### The calculator -/

/-- R246: the byte assembly functions as numbers, with the rule's examples; signedness is fixed by the field alone. -/
def Obligations.ByteAssembly : Prop :=
  (∀ h l : Byte, asm16u h l = h.toNat * 256 + l.toNat
    ∧ asm16s h l = (if h.toNat * 256 + l.toNat < 32768 then (h.toNat * 256 + l.toNat : Int)
        else (h.toNat * 256 + l.toNat : Int) - 65536))
  ∧ (∀ h m l : Byte, (asm24 h m l).toNat = h.toNat * 65536 + m.toNat * 256 + l.toNat)
  ∧ (∀ (f : CalField) (p : BitVec 16), f.value p =
      (if f = .ac4 ∨ f = .ac5 ∨ f = .ac6 then (p.toNat : Int) else p.toInt))
  ∧ asm16s 0x01 0x02 = 258 ∧ asm16u 0xFF 0xFF = 65535 ∧ asm16s 0xFF 0xFF = -1

/-- R231 to R240: the calculator as one sequence of checked nodes. The base pressure is checked at P19 and P20 only (log 14). -/
def Obligations.CompIsNodeSequence : Prop :=
  ∀ (i : CompInput) (oss : Nat),
    let t1 := i.ut - i.ac6
    let t2 := t1 * i.ac5
    let x1 := t2 / 2 ^ 15
    let t3 := i.mc * 2048
    let t4 := x1 + i.md
    let t5 := t3.tdiv t4
    let t6 := x1 + t5
    let t7 := t6 + 8
    let p1 := t6 - 4000
    let p2 := p1 * p1
    let s12 := p2 / 2 ^ 12
    let p3 := i.b2 * s12
    let p4 := i.ac2 * p1
    let p5 := p3 / 2 ^ 11 + p4 / 2 ^ 11
    let p6 := i.ac1 * 4
    let p7 := p6 + p5
    let p8 := p7 * 2 ^ oss
    let p9 := p8 + 2
    let p10 := i.ac3 * p1
    let p11 := i.b1 * s12
    let p12 := p10 / 2 ^ 13 + p11 / 2 ^ 16
    let p13 := p12 + 2
    let p14 := p13 / 2 ^ 2 + 32768
    let p15 := i.ac4 * p14
    let b4 := p15 / 2 ^ 15
    let p16 := i.up - p9 / 2 ^ 2
    let p17 := p16 * (50000 / 2 ^ oss)
    let p19 := p17 / b4 * 2
    let p := if p17 < 2147483648 then p17 * 2 / b4 else p19
    let p21 := p / 2 ^ 8 * (p / 2 ^ 8)
    let p22 := p21 * 3038
    let p23 := -7357 * p
    let p24 := p22 / 2 ^ 16 + p23 / 2 ^ 16
    let p25 := p24 + 3791
    let p26 := p + p25 / 2 ^ 4
    comp i oss =
      if ¬ inS32 t1 then .error (.ovf .t1) else if ¬ inS32 t2 then .error (.ovf .t2)
      else if ¬ inS32 t3 then .error (.ovf .t3) else if ¬ inS32 t4 then .error (.ovf .t4)
      else if t4 = 0 then .error (.div0 .t4)
      else if ¬ inS32 t5 then .error (.ovf .t5) else if ¬ inS32 t6 then .error (.ovf .t6)
      else if ¬ inS32 t7 then .error (.ovf .t7)
      else if ¬ inS32 p1 then .error (.ovf .p1) else if ¬ inS32 p2 then .error (.ovf .p2)
      else if ¬ inS32 p3 then .error (.ovf .p3) else if ¬ inS32 p4 then .error (.ovf .p4)
      else if ¬ inS32 p5 then .error (.ovf .p5) else if ¬ inS32 p6 then .error (.ovf .p6)
      else if ¬ inS32 p7 then .error (.ovf .p7) else if ¬ inS32 p8 then .error (.ovf .p8)
      else if ¬ inS32 p9 then .error (.ovf .p9) else if ¬ inS32 p10 then .error (.ovf .p10)
      else if ¬ inS32 p11 then .error (.ovf .p11) else if ¬ inS32 p12 then .error (.ovf .p12)
      else if ¬ inS32 p13 then .error (.ovf .p13) else if ¬ inU32 p14 then .error (.ovf .p14)
      else if ¬ inU32 p15 then .error (.ovf .p15) else if ¬ inU32 p16 then .error (.ovf .p16)
      else if ¬ inU32 p17 then .error (.ovf .p17)
      else if b4 = 0 then .error (.div0 .p18)
      else if ¬ p17 < 2147483648 ∧ ¬ inU32 p19 then .error (.ovf .p19)
      else if ¬ inS32 p then .error (.ovf .p20)
      else if ¬ inS32 p21 then .error (.ovf .p21) else if ¬ inS32 p22 then .error (.ovf .p22)
      else if ¬ inS32 p23 then .error (.ovf .p23) else if ¬ inS32 p24 then .error (.ovf .p24)
      else if ¬ inS32 p25 then .error (.ovf .p25) else if ¬ inS32 p26 then .error (.ovf .p26)
      else .ok (t7 / 2 ^ 4, p26)

/-- R272, R233: a division error names T4 or P18, and an overflow names any node but P18 (log 14). -/
def Obligations.CompErrorNodes : Prop :=
  ∀ (i : CompInput) (oss : Nat) (n : NodeId),
    (comp i oss = .error (.div0 n) → n = .t4 ∨ n = .p18) ∧ (comp i oss = .error (.ovf n) → n ≠ .p18)

/-- R42, R231, R242: the temperature and the pressure of an Ok outcome are s32 values, so storing their 32-bit patterns loses
nothing (log 18). -/
def Obligations.CompResultFits : Prop :=
  ∀ (i : CompInput) (oss : Nat) (t p : Int), comp i oss = .ok (t, p) →
    (BitVec.ofInt 32 t).toInt = t ∧ (BitVec.ofInt 32 p).toInt = p

/-- R245: the source's worked example gives Ok(150, 69964). -/
def Obligations.WorkedExample : Prop :=
  comp { ac1 := 408, ac2 := -72, ac3 := -14383, ac4 := 32741, ac5 := 32757, ac6 := 23153, b1 := 6190, b2 := 4
         mb := -32768, mc := -8711, md := 2868, ut := 27898, up := 23843 } 0 = .ok (150, 69964)

/-- R243, R38, R39: COMPENSATE applies the calculator to the thirteen fields, each with its signedness, and stores the outcome;
F_UNPOPULATED if a field is missing (log 1). -/
def Obligations.CompensateEffect : Prop :=
  (∀ (s : State) (ac1 ac2 ac3 ac4 ac5 ac6 b1 b2 mb mc md ut : BitVec 16) (up : BitVec 19), s.HostMay →
    s.cal = ⟨some ac1, some ac2, some ac3, some ac4, some ac5, some ac6, some b1, some b2, some mb, some mc,
      some md⟩ → s.ut = some ut → s.up = some up →
    let i : CompInput :=
      { ac1 := ac1.toInt, ac2 := ac2.toInt, ac3 := ac3.toInt, ac4 := ac4.toNat, ac5 := ac5.toNat
        ac6 := ac6.toNat, b1 := b1.toInt, b2 := b2.toInt, mb := mb.toInt, mc := mc.toInt, md := md.toInt
        ut := ut.toNat, up := up.toNat }
    let stores := fun (e : ErrCode) (r : Result) =>
      exec .compensate s = .next { s with errCode := e, result := some r, ret := .result (some r) }
    match comp i s.cfg.oss.toNat with
    | .ok (t, p) => stores .none (.ok (BitVec.ofInt 32 t) (BitVec.ofInt 32 p))
    | .error (.div0 n) => stores .compDiv0 (.err .compDiv0 (.node n))
    | .error (.ovf n) => stores .compOvf (.err .compOvf (.node n)))
  ∧ ∀ (s : State) (f : CalField), s.HostMay → s.cal.get f = none ∨ s.ut = none ∨ s.up = none →
      exec .compensate s = .next (s.raise .unpopulated)

/-! ### ACQUIRE -/

/-- R202 to R205: ACQUIRE always ends, in DONE or FAILED, with no fault and the bus released: a failed one returns where it failed, a
successful one has all its fields and returns the calculator's outcome. -/
def Obligations.AcquireCompletes : Prop :=
  ∀ s : State, s.MayAcquire →
    ∃ t, exec .acquire s = .next t ∧ t.Clear ∧ t.BusIdle ∧ t.EngineIdle ∧ t.phase = .idle ∧ t.ret = .result t.result
      ∧ ((t.step = .failed ∧ t.errCode = .busAck ∧ t.failStep.isSome = true ∧ t.failPhase.any isWritePhase = true
            ∧ t.result = some (.err .busAck (.bus t.failStep t.failPhase)))
          ∨ (t.step = .done ∧ t.devId.isSome = true ∧ t.failStep = none ∧ t.failPhase = none
            ∧ ∃ i, t.compInput = some i ∧ (t.errCode, t.result) =
                ((compResult (comp i t.cfg.oss.toNat)).1, some (compResult (comp i t.cfg.oss.toNat)).2)))

/-- R182, R194, R205, R210: an acquisition whose slots are all acknowledged delivers the bytes it receives to their fields, hands them
to the calculator once, takes all the environment's answers for it and no more, and emits exactly the transactions and waits of R210,
each with its register and command, in 3772 events, of the five kinds as R205 counts them. -/
def Obligations.AcquireDeliversData : Prop :=
  ∀ (s : State) (id uh ul ph pm pl : Byte) (cal : List (Byte × Byte)) (rest : List Bit), s.MayAcquire → cal.length = 11 →
    s.env.answers = acquisitionAnswers id cal (uh, ul) (ph, pm, pl) ++ rest →
    let seg := acquisitionEvents s.cfg id cal (uh, ul) (ph, pm, pl)
    ∃ t i, exec .acquire s = .next t ∧ t.Clear ∧ t.step = .done ∧ t.devId = some id
      ∧ t.cal.inOrder = cal.map (fun w => some (asm16 w.1 w.2))
      ∧ t.ut = some (asm16 uh ul) ∧ t.up = some (assembleUp s.cfg.oss ph pm pl)
      ∧ t.compInput = some i ∧ t.result = some (compResult (comp i s.cfg.oss.toNat)).2
      ∧ t.env.answers = rest ∧ t.trace = s.trace ++ seg ∧ seg.length = 3772
      ∧ eventCounts seg = ⟨1460, 1444, 594, 272, 2⟩

/-- R100, R204, R205: ACQUIRE is ASTART, then SEQSTEPs until DONE or FAILED, exactly 760 of them to DONE and fewer to FAILED, and then
COMPENSATE after DONE and the bus error's result after FAILED. -/
def Obligations.AcquireIsStepped : Prop :=
  ∀ s : State, s.MayAcquire →
    ∃ (n : Nat) (u v : State), exec .astart s = .next u ∧ seqsteps n u = .next v
      ∧ (∀ k < n, ∃ q, seqsteps k u = .next q ∧ q.step.resting = false)
      ∧ ((v.step = .done ∧ n = 760 ∧ exec .acquire s = exec .compensate v)
          ∨ (v.step = .failed ∧ n < 760
            ∧ exec .acquire s = .next { v with
              result := some (.err .busAck (.bus v.failStep v.failPhase))
              ret := .result (some (.err .busAck (.bus v.failStep v.failPhase))) }))

/-- R207: two acquisitions under one configuration, answered alike, give the same data, the same result and the same events, whatever
else the states they start from hold. An acquisition samples at most 272 times, so 272 answers decide it. And whatever the
environment answers, the core's own events of any two acquisitions are the same up to the first NACK: one's are the other's, or
the beginning of them, a failed one's final stop condition left out. -/
def Obligations.AcquireIsRepeatable : Prop :=
  (∀ (s₁ s₂ : State) (bs rest₁ rest₂ : List Bit), s₁.MayAcquire → s₂.MayAcquire → s₁.cfg = s₂.cfg →
    272 ≤ bs.length → s₁.env.answers = bs ++ rest₁ → s₂.env.answers = bs ++ rest₂ →
    ∃ t₁ t₂ seg, exec .acquire s₁ = .next t₁ ∧ exec .acquire s₂ = .next t₂
      ∧ t₁.trace = s₁.trace ++ seg ∧ t₂.trace = s₂.trace ++ seg
      ∧ t₁.cal = t₂.cal ∧ t₁.devId = t₂.devId ∧ t₁.ut = t₂.ut ∧ t₁.up = t₂.up ∧ t₁.result = t₂.result
      ∧ t₁.errCode = t₂.errCode ∧ t₁.step = t₂.step)
  ∧ ∀ s₁ s₂ : State, s₁.MayAcquire → s₂.MayAcquire → s₁.cfg = s₂.cfg →
      ∃ t₁ t₂ seg₁ seg₂, exec .acquire s₁ = .next t₁ ∧ exec .acquire s₂ = .next t₂
        ∧ t₁.trace = s₁.trace ++ seg₁ ++ (if t₁.step = .failed then stopWave else [])
        ∧ t₂.trace = s₂.trace ++ seg₂ ++ (if t₂.step = .failed then stopWave else [])
        ∧ (seg₁.map BusEvent.own <+: seg₂.map BusEvent.own ∨ seg₂.map BusEvent.own <+: seg₁.map BusEvent.own)
        ∧ (t₁.step = .done → seg₂.map BusEvent.own <+: seg₁.map BusEvent.own)
        ∧ (t₂.step = .done → seg₁.map BusEvent.own <+: seg₂.map BusEvent.own)

/-! ### The bus patterns and the reference sensor -/

/-- R81, R82, R148: each byte row sends its byte MSB first and stops before the acknowledge slot. That a row is an operation, and
its continuations and return value, are the model's choice (log 4, log 16). So is that CMD_TEMP and CMD_PRES send 0x2E and oo110100
under every configuration (log 21), and that an address or a register the core itself does not send is sent all the same (log 22). -/
def Obligations.BytePatternsSent : Prop :=
  ∀ (s : State) (a : BitVec 7) (r : Byte) (o : BitVec 2), s.Free →
    let sends := fun (i : Instr) (byte : Byte) (succ : Phase) =>
      exec i s = .next { s with
        lines := ⟨some false, some (byte.getLsbD 0)⟩
        trace := s.trace ++ byteWave byte
        w := { state := .ackCheck, byte := 0, bits := 0, succ := succ, err := .stopFail }
        ret := .wstep .inProgress }
    sends (.addrW a) (BitVec.ofNat 8 (a.toNat * 2)) .registerSelect
    ∧ sends (.addrR a) (BitVec.ofNat 8 (a.toNat * 2 + 1)) .read
    ∧ sends (.regSelect r) r (if r = s.cfg.regCtrl then .writeData else .restart)
    ∧ sends .cmdTemp 0x2E .stop
    ∧ sends (.cmdPres o) (BitVec.ofNat 8 (o.toNat * 64 + 0x34)) .stop

/-- R85, R163: the data row after an RLOAD is the sensor driving that byte: it is received whole, and the slot waits. That the row is
an operation, and what it returns, is the model's choice (log 4). -/
def Obligations.DataPatternReceived : Prop :=
  ∀ (s : State) (d : Byte), s.HostMay → s.r.state = .priming →
    exec (.data d) s = .next { s with
      lines := ⟨some false, some true⟩
      trace := s.trace ++ [.sda true] ++ readWave (wireBits d)
      env := { s.env with drawn := s.env.drawn + 8 }
      r := { s.r with state := if s.r.nack then .sendNack else .sendAck, byte := d, bits := 0 }
      ret := .rstep .inProgress }

/-- R84, R143, R164, R165: the slot rows: after a byte written, the core samples the slot; after a byte read, it drives the slot its
load chose. That the rows are operations, and what they return, is the model's choice (log 4). -/
def Obligations.AckSlotPatterns : Prop :=
  ∀ s : State, s.HostMay →
    (s.w.state = .ackCheck ∨ (s.w.state = .shift ∧ s.w.bits = 0) →
      (let sampled := fun (v : Bit) (p : Phase) (r : WReturn) => { s with
          lines := ⟨some false, some true⟩
          trace := s.trace ++ ackSlotWave v
          env := { s.env with drawn := s.env.drawn + 1 }
          lastAck := some v, w := { s.w with state := .idle }, phase := p, ret := .wstep r }
      exec .ack s = .next (sampled false s.w.succ .ack) ∧ exec .nack s = .next (sampled true s.w.err .nack)))
    ∧ (s.w.state = .idle →
        (let driven := fun wave => { s with
            lines := ⟨some false, some true⟩, trace := s.trace ++ wave
            r := { s.r with state := .idle }, phase := s.r.succ, ret := .rstep .complete }
        (s.r.state = .sendAck → exec .ack s = .next (driven sendAckWave))
        ∧ (s.r.state = .sendNack → exec .nack s = .next (driven sendNackWave))))

/-- A bus pattern with no place in the engine's state raises F_NOT_LOADED with the engine idle, else F_ENGINE_BUSY: the model's
choice (log 17). -/
def Obligations.MisplacedPatternsFault : Prop :=
  ∀ (s : State) (a : BitVec 7) (d : Byte) (o : BitVec 2), s.HostMay →
    (s.EngineIdle →
      exec (.data d) s = .next (s.raise .notLoaded) ∧ exec .ack s = .next (s.raise .notLoaded)
      ∧ exec .nack s = .next (s.raise .notLoaded))
    ∧ (¬ s.EngineIdle →
        (∀ i ∈ [Instr.addrW a, .addrR a, .regSelect d, .cmdTemp, .cmdPres o],
          exec i s = .next (s.raise .engineBusy))
        ∧ (s.r.state ≠ .priming → exec (.data d) s = .next (s.raise .engineBusy))
        ∧ (s.w.state ≠ .ackCheck → ¬ (s.w.state = .shift ∧ s.w.bits = 0) →
            (s.r.state ≠ .sendAck → exec .ack s = .next (s.raise .engineBusy))
            ∧ (s.r.state ≠ .sendNack → exec .nack s = .next (s.raise .engineBusy))))

/-- The reference sensor's registers (R60, R286; log 7) keep their canonical form whatever the trace. -/
def Obligations.SensorRegistersCanonical : Prop :=
  ∀ (sn : Sensor) (trace : List BusEvent), Memory.wf sn.regs = true → Memory.wf (sn.registers trace) = true

/-- R286: after a start condition and an address byte, the reference sensor pulls the acknowledge slot low exactly if the byte
carries its own address, whatever came before. The sensor is optional data of the model's environment, and it takes the start
condition from the master's output, whatever it drives itself: the model's choices (log 7). -/
def Obligations.SensorAcknowledgesItsAddress : Prop :=
  ∀ (sn : Sensor) (trace : List BusEvent) (byte : Byte),
    sn.drives (trace ++ startWave ++ byteWave byte ++ [.sda true]) = false ↔ byte.extractLsb' 1 7 = sn.addr7
end

