-- ==== Sys2Proof/Laws/State.lean ====
section
/-! SUPPORT. What each named update of the state does to each field, so that no proof unfolds a record update. -/

namespace Sys2Proof.Machine

section
variable (s : State)

/-! ### State.emit -/

@[simp] theorem State.emit_cfg (e : BusEvent) : (s.emit e).cfg = s.cfg := rfl
@[simp] theorem State.emit_lines (e : BusEvent) : (s.emit e).lines = s.lines.after e := rfl
@[simp] theorem State.emit_begun (e : BusEvent) : (s.emit e).begun = s.begun := rfl
@[simp] theorem State.emit_phase (e : BusEvent) : (s.emit e).phase = s.phase := rfl
@[simp] theorem State.emit_w (e : BusEvent) : (s.emit e).w = s.w := rfl
@[simp] theorem State.emit_lastAck (e : BusEvent) : (s.emit e).lastAck = s.lastAck := rfl
@[simp] theorem State.emit_r (e : BusEvent) : (s.emit e).r = s.r := rfl
@[simp] theorem State.emit_step (e : BusEvent) : (s.emit e).step = s.step := rfl
@[simp] theorem State.emit_idx (e : BusEvent) : (s.emit e).idx = s.idx := rfl
@[simp] theorem State.emit_buf (e : BusEvent) : (s.emit e).buf = s.buf := rfl
@[simp] theorem State.emit_devId (e : BusEvent) : (s.emit e).devId = s.devId := rfl
@[simp] theorem State.emit_cal (e : BusEvent) : (s.emit e).cal = s.cal := rfl
@[simp] theorem State.emit_ut (e : BusEvent) : (s.emit e).ut = s.ut := rfl
@[simp] theorem State.emit_up (e : BusEvent) : (s.emit e).up = s.up := rfl
@[simp] theorem State.emit_failStep (e : BusEvent) : (s.emit e).failStep = s.failStep := rfl
@[simp] theorem State.emit_failPhase (e : BusEvent) : (s.emit e).failPhase = s.failPhase := rfl
@[simp] theorem State.emit_errCode (e : BusEvent) : (s.emit e).errCode = s.errCode := rfl
@[simp] theorem State.emit_result (e : BusEvent) : (s.emit e).result = s.result := rfl
@[simp] theorem State.emit_trace (e : BusEvent) : (s.emit e).trace = s.trace ++ [e] := rfl
@[simp] theorem State.emit_fault (e : BusEvent) : (s.emit e).fault = s.fault := rfl
@[simp] theorem State.emit_refused (e : BusEvent) : (s.emit e).refused = s.refused := rfl
@[simp] theorem State.emit_ret (e : BusEvent) : (s.emit e).ret = s.ret := rfl
@[simp] theorem State.emit_env (e : BusEvent) : (s.emit e).env = s.env := rfl
@[simp] theorem State.emit_pending (e : BusEvent) : (s.emit e).pending = s.pending := rfl

/-! ### State.sample -/

@[simp] theorem State.sample_cfg : (s.sample).cfg = s.cfg := rfl
@[simp] theorem State.sample_lines : (s.sample).lines = s.lines := rfl
@[simp] theorem State.sample_begun : (s.sample).begun = s.begun := rfl
@[simp] theorem State.sample_phase : (s.sample).phase = s.phase := rfl
@[simp] theorem State.sample_w : (s.sample).w = s.w := rfl
@[simp] theorem State.sample_lastAck : (s.sample).lastAck = s.lastAck := rfl
@[simp] theorem State.sample_r : (s.sample).r = s.r := rfl
@[simp] theorem State.sample_step : (s.sample).step = s.step := rfl
@[simp] theorem State.sample_idx : (s.sample).idx = s.idx := rfl
@[simp] theorem State.sample_buf : (s.sample).buf = s.buf := rfl
@[simp] theorem State.sample_devId : (s.sample).devId = s.devId := rfl
@[simp] theorem State.sample_cal : (s.sample).cal = s.cal := rfl
@[simp] theorem State.sample_ut : (s.sample).ut = s.ut := rfl
@[simp] theorem State.sample_up : (s.sample).up = s.up := rfl
@[simp] theorem State.sample_failStep : (s.sample).failStep = s.failStep := rfl
@[simp] theorem State.sample_failPhase : (s.sample).failPhase = s.failPhase := rfl
@[simp] theorem State.sample_errCode : (s.sample).errCode = s.errCode := rfl
@[simp] theorem State.sample_result : (s.sample).result = s.result := rfl
@[simp] theorem State.sample_trace : (s.sample).trace = s.trace ++ [.sample s.sampleBit] := rfl
@[simp] theorem State.sample_fault : (s.sample).fault = s.fault := rfl
@[simp] theorem State.sample_refused : (s.sample).refused = s.refused := rfl
@[simp] theorem State.sample_ret : (s.sample).ret = s.ret := rfl
@[simp] theorem State.sample_env : (s.sample).env = s.env.advance := rfl
@[simp] theorem State.sample_pending : (s.sample).pending = s.pending := rfl

/-! ### State.setW -/

@[simp] theorem State.setW_cfg (w : WriteCtx) : (s.setW w).cfg = s.cfg := rfl
@[simp] theorem State.setW_lines (w : WriteCtx) : (s.setW w).lines = s.lines := rfl
@[simp] theorem State.setW_begun (w : WriteCtx) : (s.setW w).begun = s.begun := rfl
@[simp] theorem State.setW_phase (w : WriteCtx) : (s.setW w).phase = s.phase := rfl
@[simp] theorem State.setW_w (w : WriteCtx) : (s.setW w).w = w := rfl
@[simp] theorem State.setW_lastAck (w : WriteCtx) : (s.setW w).lastAck = s.lastAck := rfl
@[simp] theorem State.setW_r (w : WriteCtx) : (s.setW w).r = s.r := rfl
@[simp] theorem State.setW_step (w : WriteCtx) : (s.setW w).step = s.step := rfl
@[simp] theorem State.setW_idx (w : WriteCtx) : (s.setW w).idx = s.idx := rfl
@[simp] theorem State.setW_buf (w : WriteCtx) : (s.setW w).buf = s.buf := rfl
@[simp] theorem State.setW_devId (w : WriteCtx) : (s.setW w).devId = s.devId := rfl
@[simp] theorem State.setW_cal (w : WriteCtx) : (s.setW w).cal = s.cal := rfl
@[simp] theorem State.setW_ut (w : WriteCtx) : (s.setW w).ut = s.ut := rfl
@[simp] theorem State.setW_up (w : WriteCtx) : (s.setW w).up = s.up := rfl
@[simp] theorem State.setW_failStep (w : WriteCtx) : (s.setW w).failStep = s.failStep := rfl
@[simp] theorem State.setW_failPhase (w : WriteCtx) : (s.setW w).failPhase = s.failPhase := rfl
@[simp] theorem State.setW_errCode (w : WriteCtx) : (s.setW w).errCode = s.errCode := rfl
@[simp] theorem State.setW_result (w : WriteCtx) : (s.setW w).result = s.result := rfl
@[simp] theorem State.setW_trace (w : WriteCtx) : (s.setW w).trace = s.trace := rfl
@[simp] theorem State.setW_fault (w : WriteCtx) : (s.setW w).fault = s.fault := rfl
@[simp] theorem State.setW_refused (w : WriteCtx) : (s.setW w).refused = s.refused := rfl
@[simp] theorem State.setW_ret (w : WriteCtx) : (s.setW w).ret = s.ret := rfl
@[simp] theorem State.setW_env (w : WriteCtx) : (s.setW w).env = s.env := rfl
@[simp] theorem State.setW_pending (w : WriteCtx) : (s.setW w).pending = s.pending := rfl

/-! ### State.setR -/

@[simp] theorem State.setR_cfg (r : ReadCtx) : (s.setR r).cfg = s.cfg := rfl
@[simp] theorem State.setR_lines (r : ReadCtx) : (s.setR r).lines = s.lines := rfl
@[simp] theorem State.setR_begun (r : ReadCtx) : (s.setR r).begun = s.begun := rfl
@[simp] theorem State.setR_phase (r : ReadCtx) : (s.setR r).phase = s.phase := rfl
@[simp] theorem State.setR_w (r : ReadCtx) : (s.setR r).w = s.w := rfl
@[simp] theorem State.setR_lastAck (r : ReadCtx) : (s.setR r).lastAck = s.lastAck := rfl
@[simp] theorem State.setR_r (r : ReadCtx) : (s.setR r).r = r := rfl
@[simp] theorem State.setR_step (r : ReadCtx) : (s.setR r).step = s.step := rfl
@[simp] theorem State.setR_idx (r : ReadCtx) : (s.setR r).idx = s.idx := rfl
@[simp] theorem State.setR_buf (r : ReadCtx) : (s.setR r).buf = s.buf := rfl
@[simp] theorem State.setR_devId (r : ReadCtx) : (s.setR r).devId = s.devId := rfl
@[simp] theorem State.setR_cal (r : ReadCtx) : (s.setR r).cal = s.cal := rfl
@[simp] theorem State.setR_ut (r : ReadCtx) : (s.setR r).ut = s.ut := rfl
@[simp] theorem State.setR_up (r : ReadCtx) : (s.setR r).up = s.up := rfl
@[simp] theorem State.setR_failStep (r : ReadCtx) : (s.setR r).failStep = s.failStep := rfl
@[simp] theorem State.setR_failPhase (r : ReadCtx) : (s.setR r).failPhase = s.failPhase := rfl
@[simp] theorem State.setR_errCode (r : ReadCtx) : (s.setR r).errCode = s.errCode := rfl
@[simp] theorem State.setR_result (r : ReadCtx) : (s.setR r).result = s.result := rfl
@[simp] theorem State.setR_trace (r : ReadCtx) : (s.setR r).trace = s.trace := rfl
@[simp] theorem State.setR_fault (r : ReadCtx) : (s.setR r).fault = s.fault := rfl
@[simp] theorem State.setR_refused (r : ReadCtx) : (s.setR r).refused = s.refused := rfl
@[simp] theorem State.setR_ret (r : ReadCtx) : (s.setR r).ret = s.ret := rfl
@[simp] theorem State.setR_env (r : ReadCtx) : (s.setR r).env = s.env := rfl
@[simp] theorem State.setR_pending (r : ReadCtx) : (s.setR r).pending = s.pending := rfl

/-! ### State.setPhase -/

@[simp] theorem State.setPhase_cfg (p : Phase) : (s.setPhase p).cfg = s.cfg := rfl
@[simp] theorem State.setPhase_lines (p : Phase) : (s.setPhase p).lines = s.lines := rfl
@[simp] theorem State.setPhase_begun (p : Phase) : (s.setPhase p).begun = s.begun := rfl
@[simp] theorem State.setPhase_phase (p : Phase) : (s.setPhase p).phase = p := rfl
@[simp] theorem State.setPhase_w (p : Phase) : (s.setPhase p).w = s.w := rfl
@[simp] theorem State.setPhase_lastAck (p : Phase) : (s.setPhase p).lastAck = s.lastAck := rfl
@[simp] theorem State.setPhase_r (p : Phase) : (s.setPhase p).r = s.r := rfl
@[simp] theorem State.setPhase_step (p : Phase) : (s.setPhase p).step = s.step := rfl
@[simp] theorem State.setPhase_idx (p : Phase) : (s.setPhase p).idx = s.idx := rfl
@[simp] theorem State.setPhase_buf (p : Phase) : (s.setPhase p).buf = s.buf := rfl
@[simp] theorem State.setPhase_devId (p : Phase) : (s.setPhase p).devId = s.devId := rfl
@[simp] theorem State.setPhase_cal (p : Phase) : (s.setPhase p).cal = s.cal := rfl
@[simp] theorem State.setPhase_ut (p : Phase) : (s.setPhase p).ut = s.ut := rfl
@[simp] theorem State.setPhase_up (p : Phase) : (s.setPhase p).up = s.up := rfl
@[simp] theorem State.setPhase_failStep (p : Phase) : (s.setPhase p).failStep = s.failStep := rfl
@[simp] theorem State.setPhase_failPhase (p : Phase) : (s.setPhase p).failPhase = s.failPhase := rfl
@[simp] theorem State.setPhase_errCode (p : Phase) : (s.setPhase p).errCode = s.errCode := rfl
@[simp] theorem State.setPhase_result (p : Phase) : (s.setPhase p).result = s.result := rfl
@[simp] theorem State.setPhase_trace (p : Phase) : (s.setPhase p).trace = s.trace := rfl
@[simp] theorem State.setPhase_fault (p : Phase) : (s.setPhase p).fault = s.fault := rfl
@[simp] theorem State.setPhase_refused (p : Phase) : (s.setPhase p).refused = s.refused := rfl
@[simp] theorem State.setPhase_ret (p : Phase) : (s.setPhase p).ret = s.ret := rfl
@[simp] theorem State.setPhase_env (p : Phase) : (s.setPhase p).env = s.env := rfl
@[simp] theorem State.setPhase_pending (p : Phase) : (s.setPhase p).pending = s.pending := rfl

/-! ### State.raise -/

@[simp] theorem State.raise_cfg (f : Fault) : (s.raise f).cfg = s.cfg := rfl
@[simp] theorem State.raise_lines (f : Fault) : (s.raise f).lines = s.lines := rfl
@[simp] theorem State.raise_begun (f : Fault) : (s.raise f).begun = s.begun := rfl
@[simp] theorem State.raise_phase (f : Fault) : (s.raise f).phase = s.phase := rfl
@[simp] theorem State.raise_w (f : Fault) : (s.raise f).w = s.w := rfl
@[simp] theorem State.raise_lastAck (f : Fault) : (s.raise f).lastAck = s.lastAck := rfl
@[simp] theorem State.raise_r (f : Fault) : (s.raise f).r = s.r := rfl
@[simp] theorem State.raise_step (f : Fault) : (s.raise f).step = s.step := rfl
@[simp] theorem State.raise_idx (f : Fault) : (s.raise f).idx = s.idx := rfl
@[simp] theorem State.raise_buf (f : Fault) : (s.raise f).buf = s.buf := rfl
@[simp] theorem State.raise_devId (f : Fault) : (s.raise f).devId = s.devId := rfl
@[simp] theorem State.raise_cal (f : Fault) : (s.raise f).cal = s.cal := rfl
@[simp] theorem State.raise_ut (f : Fault) : (s.raise f).ut = s.ut := rfl
@[simp] theorem State.raise_up (f : Fault) : (s.raise f).up = s.up := rfl
@[simp] theorem State.raise_failStep (f : Fault) : (s.raise f).failStep = s.failStep := rfl
@[simp] theorem State.raise_failPhase (f : Fault) : (s.raise f).failPhase = s.failPhase := rfl
@[simp] theorem State.raise_errCode (f : Fault) : (s.raise f).errCode = s.errCode := rfl
@[simp] theorem State.raise_result (f : Fault) : (s.raise f).result = s.result := rfl
@[simp] theorem State.raise_trace (f : Fault) : (s.raise f).trace = s.trace := rfl
@[simp] theorem State.raise_fault (f : Fault) : (s.raise f).fault = some f := rfl
@[simp] theorem State.raise_refused (f : Fault) : (s.raise f).refused = s.refused := rfl
@[simp] theorem State.raise_ret (f : Fault) : (s.raise f).ret = s.ret := rfl
@[simp] theorem State.raise_env (f : Fault) : (s.raise f).env = s.env := rfl
@[simp] theorem State.raise_pending (f : Fault) : (s.raise f).pending = s.pending := rfl

/-! ### State.refuse -/

@[simp] theorem State.refuse_cfg : (s.refuse).cfg = s.cfg := rfl
@[simp] theorem State.refuse_lines : (s.refuse).lines = s.lines := rfl
@[simp] theorem State.refuse_begun : (s.refuse).begun = s.begun := rfl
@[simp] theorem State.refuse_phase : (s.refuse).phase = s.phase := rfl
@[simp] theorem State.refuse_w : (s.refuse).w = s.w := rfl
@[simp] theorem State.refuse_lastAck : (s.refuse).lastAck = s.lastAck := rfl
@[simp] theorem State.refuse_r : (s.refuse).r = s.r := rfl
@[simp] theorem State.refuse_step : (s.refuse).step = s.step := rfl
@[simp] theorem State.refuse_idx : (s.refuse).idx = s.idx := rfl
@[simp] theorem State.refuse_buf : (s.refuse).buf = s.buf := rfl
@[simp] theorem State.refuse_devId : (s.refuse).devId = s.devId := rfl
@[simp] theorem State.refuse_cal : (s.refuse).cal = s.cal := rfl
@[simp] theorem State.refuse_ut : (s.refuse).ut = s.ut := rfl
@[simp] theorem State.refuse_up : (s.refuse).up = s.up := rfl
@[simp] theorem State.refuse_failStep : (s.refuse).failStep = s.failStep := rfl
@[simp] theorem State.refuse_failPhase : (s.refuse).failPhase = s.failPhase := rfl
@[simp] theorem State.refuse_errCode : (s.refuse).errCode = s.errCode := rfl
@[simp] theorem State.refuse_result : (s.refuse).result = s.result := rfl
@[simp] theorem State.refuse_trace : (s.refuse).trace = s.trace := rfl
@[simp] theorem State.refuse_fault : (s.refuse).fault = s.fault := rfl
@[simp] theorem State.refuse_refused : (s.refuse).refused = true := rfl
@[simp] theorem State.refuse_ret : (s.refuse).ret = s.ret := rfl
@[simp] theorem State.refuse_env : (s.refuse).env = s.env := rfl
@[simp] theorem State.refuse_pending : (s.refuse).pending = s.pending := rfl

/-! ### State.returning -/

@[simp] theorem State.returning_cfg (v : Ret) : (s.returning v).cfg = s.cfg := rfl
@[simp] theorem State.returning_lines (v : Ret) : (s.returning v).lines = s.lines := rfl
@[simp] theorem State.returning_begun (v : Ret) : (s.returning v).begun = s.begun := rfl
@[simp] theorem State.returning_phase (v : Ret) : (s.returning v).phase = s.phase := rfl
@[simp] theorem State.returning_w (v : Ret) : (s.returning v).w = s.w := rfl
@[simp] theorem State.returning_lastAck (v : Ret) : (s.returning v).lastAck = s.lastAck := rfl
@[simp] theorem State.returning_r (v : Ret) : (s.returning v).r = s.r := rfl
@[simp] theorem State.returning_step (v : Ret) : (s.returning v).step = s.step := rfl
@[simp] theorem State.returning_idx (v : Ret) : (s.returning v).idx = s.idx := rfl
@[simp] theorem State.returning_buf (v : Ret) : (s.returning v).buf = s.buf := rfl
@[simp] theorem State.returning_devId (v : Ret) : (s.returning v).devId = s.devId := rfl
@[simp] theorem State.returning_cal (v : Ret) : (s.returning v).cal = s.cal := rfl
@[simp] theorem State.returning_ut (v : Ret) : (s.returning v).ut = s.ut := rfl
@[simp] theorem State.returning_up (v : Ret) : (s.returning v).up = s.up := rfl
@[simp] theorem State.returning_failStep (v : Ret) : (s.returning v).failStep = s.failStep := rfl
@[simp] theorem State.returning_failPhase (v : Ret) : (s.returning v).failPhase = s.failPhase := rfl
@[simp] theorem State.returning_errCode (v : Ret) : (s.returning v).errCode = s.errCode := rfl
@[simp] theorem State.returning_result (v : Ret) : (s.returning v).result = s.result := rfl
@[simp] theorem State.returning_trace (v : Ret) : (s.returning v).trace = s.trace := rfl
@[simp] theorem State.returning_fault (v : Ret) : (s.returning v).fault = s.fault := rfl
@[simp] theorem State.returning_refused (v : Ret) : (s.returning v).refused = s.refused := rfl
@[simp] theorem State.returning_ret (v : Ret) : (s.returning v).ret = v := rfl
@[simp] theorem State.returning_env (v : Ret) : (s.returning v).env = s.env := rfl
@[simp] theorem State.returning_pending (v : Ret) : (s.returning v).pending = s.pending := rfl

/-! ### State.setAck -/

@[simp] theorem State.setAck_cfg (a : Bit) : (s.setAck a).cfg = s.cfg := rfl
@[simp] theorem State.setAck_lines (a : Bit) : (s.setAck a).lines = s.lines := rfl
@[simp] theorem State.setAck_begun (a : Bit) : (s.setAck a).begun = s.begun := rfl
@[simp] theorem State.setAck_phase (a : Bit) : (s.setAck a).phase = s.phase := rfl
@[simp] theorem State.setAck_w (a : Bit) : (s.setAck a).w = s.w := rfl
@[simp] theorem State.setAck_lastAck (a : Bit) : (s.setAck a).lastAck = some a := rfl
@[simp] theorem State.setAck_r (a : Bit) : (s.setAck a).r = s.r := rfl
@[simp] theorem State.setAck_step (a : Bit) : (s.setAck a).step = s.step := rfl
@[simp] theorem State.setAck_idx (a : Bit) : (s.setAck a).idx = s.idx := rfl
@[simp] theorem State.setAck_buf (a : Bit) : (s.setAck a).buf = s.buf := rfl
@[simp] theorem State.setAck_devId (a : Bit) : (s.setAck a).devId = s.devId := rfl
@[simp] theorem State.setAck_cal (a : Bit) : (s.setAck a).cal = s.cal := rfl
@[simp] theorem State.setAck_ut (a : Bit) : (s.setAck a).ut = s.ut := rfl
@[simp] theorem State.setAck_up (a : Bit) : (s.setAck a).up = s.up := rfl
@[simp] theorem State.setAck_failStep (a : Bit) : (s.setAck a).failStep = s.failStep := rfl
@[simp] theorem State.setAck_failPhase (a : Bit) : (s.setAck a).failPhase = s.failPhase := rfl
@[simp] theorem State.setAck_errCode (a : Bit) : (s.setAck a).errCode = s.errCode := rfl
@[simp] theorem State.setAck_result (a : Bit) : (s.setAck a).result = s.result := rfl
@[simp] theorem State.setAck_trace (a : Bit) : (s.setAck a).trace = s.trace := rfl
@[simp] theorem State.setAck_fault (a : Bit) : (s.setAck a).fault = s.fault := rfl
@[simp] theorem State.setAck_refused (a : Bit) : (s.setAck a).refused = s.refused := rfl
@[simp] theorem State.setAck_ret (a : Bit) : (s.setAck a).ret = s.ret := rfl
@[simp] theorem State.setAck_env (a : Bit) : (s.setAck a).env = s.env := rfl
@[simp] theorem State.setAck_pending (a : Bit) : (s.setAck a).pending = s.pending := rfl

/-! ### State.recordFail -/

@[simp] theorem State.recordFail_cfg (st : Step) (p : Phase) : (s.recordFail st p).cfg = s.cfg := rfl
@[simp] theorem State.recordFail_lines (st : Step) (p : Phase) : (s.recordFail st p).lines = s.lines := rfl
@[simp] theorem State.recordFail_begun (st : Step) (p : Phase) : (s.recordFail st p).begun = s.begun := rfl
@[simp] theorem State.recordFail_phase (st : Step) (p : Phase) : (s.recordFail st p).phase = s.phase := rfl
@[simp] theorem State.recordFail_w (st : Step) (p : Phase) : (s.recordFail st p).w = s.w := rfl
@[simp] theorem State.recordFail_lastAck (st : Step) (p : Phase) : (s.recordFail st p).lastAck = s.lastAck := rfl
@[simp] theorem State.recordFail_r (st : Step) (p : Phase) : (s.recordFail st p).r = s.r := rfl
@[simp] theorem State.recordFail_step (st : Step) (p : Phase) : (s.recordFail st p).step = s.step := rfl
@[simp] theorem State.recordFail_idx (st : Step) (p : Phase) : (s.recordFail st p).idx = s.idx := rfl
@[simp] theorem State.recordFail_buf (st : Step) (p : Phase) : (s.recordFail st p).buf = s.buf := rfl
@[simp] theorem State.recordFail_devId (st : Step) (p : Phase) : (s.recordFail st p).devId = s.devId := rfl
@[simp] theorem State.recordFail_cal (st : Step) (p : Phase) : (s.recordFail st p).cal = s.cal := rfl
@[simp] theorem State.recordFail_ut (st : Step) (p : Phase) : (s.recordFail st p).ut = s.ut := rfl
@[simp] theorem State.recordFail_up (st : Step) (p : Phase) : (s.recordFail st p).up = s.up := rfl
@[simp] theorem State.recordFail_failStep (st : Step) (p : Phase) : (s.recordFail st p).failStep = some st := rfl
@[simp] theorem State.recordFail_failPhase (st : Step) (p : Phase) : (s.recordFail st p).failPhase = some p := rfl
@[simp] theorem State.recordFail_errCode (st : Step) (p : Phase) : (s.recordFail st p).errCode = s.errCode := rfl
@[simp] theorem State.recordFail_result (st : Step) (p : Phase) : (s.recordFail st p).result = s.result := rfl
@[simp] theorem State.recordFail_trace (st : Step) (p : Phase) : (s.recordFail st p).trace = s.trace := rfl
@[simp] theorem State.recordFail_fault (st : Step) (p : Phase) : (s.recordFail st p).fault = s.fault := rfl
@[simp] theorem State.recordFail_refused (st : Step) (p : Phase) : (s.recordFail st p).refused = s.refused := rfl
@[simp] theorem State.recordFail_ret (st : Step) (p : Phase) : (s.recordFail st p).ret = s.ret := rfl
@[simp] theorem State.recordFail_env (st : Step) (p : Phase) : (s.recordFail st p).env = s.env := rfl
@[simp] theorem State.recordFail_pending (st : Step) (p : Phase) : (s.recordFail st p).pending = s.pending := rfl

/-! ### State.setCompResult -/

@[simp] theorem State.setCompResult_cfg (c : ErrCode × Result) : (s.setCompResult c).cfg = s.cfg := rfl
@[simp] theorem State.setCompResult_lines (c : ErrCode × Result) : (s.setCompResult c).lines = s.lines := rfl
@[simp] theorem State.setCompResult_begun (c : ErrCode × Result) : (s.setCompResult c).begun = s.begun := rfl
@[simp] theorem State.setCompResult_phase (c : ErrCode × Result) : (s.setCompResult c).phase = s.phase := rfl
@[simp] theorem State.setCompResult_w (c : ErrCode × Result) : (s.setCompResult c).w = s.w := rfl
@[simp] theorem State.setCompResult_lastAck (c : ErrCode × Result) : (s.setCompResult c).lastAck = s.lastAck := rfl
@[simp] theorem State.setCompResult_r (c : ErrCode × Result) : (s.setCompResult c).r = s.r := rfl
@[simp] theorem State.setCompResult_step (c : ErrCode × Result) : (s.setCompResult c).step = s.step := rfl
@[simp] theorem State.setCompResult_idx (c : ErrCode × Result) : (s.setCompResult c).idx = s.idx := rfl
@[simp] theorem State.setCompResult_buf (c : ErrCode × Result) : (s.setCompResult c).buf = s.buf := rfl
@[simp] theorem State.setCompResult_devId (c : ErrCode × Result) : (s.setCompResult c).devId = s.devId := rfl
@[simp] theorem State.setCompResult_cal (c : ErrCode × Result) : (s.setCompResult c).cal = s.cal := rfl
@[simp] theorem State.setCompResult_ut (c : ErrCode × Result) : (s.setCompResult c).ut = s.ut := rfl
@[simp] theorem State.setCompResult_up (c : ErrCode × Result) : (s.setCompResult c).up = s.up := rfl
@[simp] theorem State.setCompResult_failStep (c : ErrCode × Result) : (s.setCompResult c).failStep = s.failStep := rfl
@[simp] theorem State.setCompResult_failPhase (c : ErrCode × Result) : (s.setCompResult c).failPhase = s.failPhase := rfl
@[simp] theorem State.setCompResult_errCode (c : ErrCode × Result) : (s.setCompResult c).errCode = c.1 := rfl
@[simp] theorem State.setCompResult_result (c : ErrCode × Result) : (s.setCompResult c).result = some c.2 := rfl
@[simp] theorem State.setCompResult_trace (c : ErrCode × Result) : (s.setCompResult c).trace = s.trace := rfl
@[simp] theorem State.setCompResult_fault (c : ErrCode × Result) : (s.setCompResult c).fault = s.fault := rfl
@[simp] theorem State.setCompResult_refused (c : ErrCode × Result) : (s.setCompResult c).refused = s.refused := rfl
@[simp] theorem State.setCompResult_ret (c : ErrCode × Result) : (s.setCompResult c).ret = s.ret := rfl
@[simp] theorem State.setCompResult_env (c : ErrCode × Result) : (s.setCompResult c).env = s.env := rfl
@[simp] theorem State.setCompResult_pending (c : ErrCode × Result) : (s.setCompResult c).pending = s.pending := rfl

/-! ### State.clearAcquisition -/

@[simp] theorem State.clearAcquisition_cfg : (s.clearAcquisition).cfg = s.cfg := rfl
@[simp] theorem State.clearAcquisition_lines : (s.clearAcquisition).lines = s.lines := rfl
@[simp] theorem State.clearAcquisition_begun : (s.clearAcquisition).begun = s.begun := rfl
@[simp] theorem State.clearAcquisition_phase : (s.clearAcquisition).phase = .start := rfl
@[simp] theorem State.clearAcquisition_w : (s.clearAcquisition).w = s.w := rfl
@[simp] theorem State.clearAcquisition_lastAck : (s.clearAcquisition).lastAck = s.lastAck := rfl
@[simp] theorem State.clearAcquisition_r : (s.clearAcquisition).r = s.r := rfl
@[simp] theorem State.clearAcquisition_step : (s.clearAcquisition).step = .readDeviceId := rfl
@[simp] theorem State.clearAcquisition_idx : (s.clearAcquisition).idx = 0 := rfl
@[simp] theorem State.clearAcquisition_buf : (s.clearAcquisition).buf = RxBuffer.empty := rfl
@[simp] theorem State.clearAcquisition_devId : (s.clearAcquisition).devId = none := rfl
@[simp] theorem State.clearAcquisition_cal : (s.clearAcquisition).cal = Calibration.empty := rfl
@[simp] theorem State.clearAcquisition_ut : (s.clearAcquisition).ut = none := rfl
@[simp] theorem State.clearAcquisition_up : (s.clearAcquisition).up = none := rfl
@[simp] theorem State.clearAcquisition_failStep : (s.clearAcquisition).failStep = none := rfl
@[simp] theorem State.clearAcquisition_failPhase : (s.clearAcquisition).failPhase = none := rfl
@[simp] theorem State.clearAcquisition_errCode : (s.clearAcquisition).errCode = .none := rfl
@[simp] theorem State.clearAcquisition_result : (s.clearAcquisition).result = none := rfl
@[simp] theorem State.clearAcquisition_trace : (s.clearAcquisition).trace = s.trace := rfl
@[simp] theorem State.clearAcquisition_fault : (s.clearAcquisition).fault = s.fault := rfl
@[simp] theorem State.clearAcquisition_refused : (s.clearAcquisition).refused = s.refused := rfl
@[simp] theorem State.clearAcquisition_ret : (s.clearAcquisition).ret = s.ret := rfl
@[simp] theorem State.clearAcquisition_env : (s.clearAcquisition).env = s.env := rfl
@[simp] theorem State.clearAcquisition_pending : (s.clearAcquisition).pending = s.pending := rfl

/-! ### State.enter -/

@[simp] theorem State.enter_cfg (st : Step) (p : Phase) : (s.enter st p).cfg = s.cfg := rfl
@[simp] theorem State.enter_lines (st : Step) (p : Phase) : (s.enter st p).lines = s.lines := rfl
@[simp] theorem State.enter_begun (st : Step) (p : Phase) : (s.enter st p).begun = s.begun := rfl
@[simp] theorem State.enter_phase (st : Step) (p : Phase) : (s.enter st p).phase = p := rfl
@[simp] theorem State.enter_w (st : Step) (p : Phase) : (s.enter st p).w = s.w := rfl
@[simp] theorem State.enter_lastAck (st : Step) (p : Phase) : (s.enter st p).lastAck = s.lastAck := rfl
@[simp] theorem State.enter_r (st : Step) (p : Phase) : (s.enter st p).r = s.r := rfl
@[simp] theorem State.enter_step (st : Step) (p : Phase) : (s.enter st p).step = st := rfl
@[simp] theorem State.enter_idx (st : Step) (p : Phase) : (s.enter st p).idx = 0 := rfl
@[simp] theorem State.enter_buf (st : Step) (p : Phase) : (s.enter st p).buf = s.buf := rfl
@[simp] theorem State.enter_devId (st : Step) (p : Phase) : (s.enter st p).devId = s.devId := rfl
@[simp] theorem State.enter_cal (st : Step) (p : Phase) : (s.enter st p).cal = s.cal := rfl
@[simp] theorem State.enter_ut (st : Step) (p : Phase) : (s.enter st p).ut = s.ut := rfl
@[simp] theorem State.enter_up (st : Step) (p : Phase) : (s.enter st p).up = s.up := rfl
@[simp] theorem State.enter_failStep (st : Step) (p : Phase) : (s.enter st p).failStep = s.failStep := rfl
@[simp] theorem State.enter_failPhase (st : Step) (p : Phase) : (s.enter st p).failPhase = s.failPhase := rfl
@[simp] theorem State.enter_errCode (st : Step) (p : Phase) : (s.enter st p).errCode = s.errCode := rfl
@[simp] theorem State.enter_result (st : Step) (p : Phase) : (s.enter st p).result = s.result := rfl
@[simp] theorem State.enter_trace (st : Step) (p : Phase) : (s.enter st p).trace = s.trace := rfl
@[simp] theorem State.enter_fault (st : Step) (p : Phase) : (s.enter st p).fault = s.fault := rfl
@[simp] theorem State.enter_refused (st : Step) (p : Phase) : (s.enter st p).refused = s.refused := rfl
@[simp] theorem State.enter_ret (st : Step) (p : Phase) : (s.enter st p).ret = s.ret := rfl
@[simp] theorem State.enter_env (st : Step) (p : Phase) : (s.enter st p).env = s.env := rfl
@[simp] theorem State.enter_pending (st : Step) (p : Phase) : (s.enter st p).pending = s.pending := rfl

/-! ### State.setBusError -/

@[simp] theorem State.setBusError_cfg : (s.setBusError).cfg = s.cfg := rfl
@[simp] theorem State.setBusError_lines : (s.setBusError).lines = s.lines := rfl
@[simp] theorem State.setBusError_begun : (s.setBusError).begun = s.begun := rfl
@[simp] theorem State.setBusError_phase : (s.setBusError).phase = s.phase := rfl
@[simp] theorem State.setBusError_w : (s.setBusError).w = s.w := rfl
@[simp] theorem State.setBusError_lastAck : (s.setBusError).lastAck = s.lastAck := rfl
@[simp] theorem State.setBusError_r : (s.setBusError).r = s.r := rfl
@[simp] theorem State.setBusError_step : (s.setBusError).step = s.step := rfl
@[simp] theorem State.setBusError_idx : (s.setBusError).idx = s.idx := rfl
@[simp] theorem State.setBusError_buf : (s.setBusError).buf = s.buf := rfl
@[simp] theorem State.setBusError_devId : (s.setBusError).devId = s.devId := rfl
@[simp] theorem State.setBusError_cal : (s.setBusError).cal = s.cal := rfl
@[simp] theorem State.setBusError_ut : (s.setBusError).ut = s.ut := rfl
@[simp] theorem State.setBusError_up : (s.setBusError).up = s.up := rfl
@[simp] theorem State.setBusError_failStep : (s.setBusError).failStep = s.failStep := rfl
@[simp] theorem State.setBusError_failPhase : (s.setBusError).failPhase = s.failPhase := rfl
@[simp] theorem State.setBusError_errCode : (s.setBusError).errCode = s.errCode := rfl
@[simp] theorem State.setBusError_result : (s.setBusError).result = some (.err .busAck (.bus s.failStep s.failPhase)) := rfl
@[simp] theorem State.setBusError_trace : (s.setBusError).trace = s.trace := rfl
@[simp] theorem State.setBusError_fault : (s.setBusError).fault = s.fault := rfl
@[simp] theorem State.setBusError_refused : (s.setBusError).refused = s.refused := rfl
@[simp] theorem State.setBusError_ret : (s.setBusError).ret = s.ret := rfl
@[simp] theorem State.setBusError_env : (s.setBusError).env = s.env := rfl
@[simp] theorem State.setBusError_pending : (s.setBusError).pending = s.pending := rfl

/-! ### State.answerNext -/

@[simp] theorem State.answerNext_cfg (bs : List Bit) : (s.answerNext bs).cfg = s.cfg := rfl
@[simp] theorem State.answerNext_lines (bs : List Bit) : (s.answerNext bs).lines = s.lines := rfl
@[simp] theorem State.answerNext_begun (bs : List Bit) : (s.answerNext bs).begun = s.begun := rfl
@[simp] theorem State.answerNext_phase (bs : List Bit) : (s.answerNext bs).phase = s.phase := rfl
@[simp] theorem State.answerNext_w (bs : List Bit) : (s.answerNext bs).w = s.w := rfl
@[simp] theorem State.answerNext_lastAck (bs : List Bit) : (s.answerNext bs).lastAck = s.lastAck := rfl
@[simp] theorem State.answerNext_r (bs : List Bit) : (s.answerNext bs).r = s.r := rfl
@[simp] theorem State.answerNext_step (bs : List Bit) : (s.answerNext bs).step = s.step := rfl
@[simp] theorem State.answerNext_idx (bs : List Bit) : (s.answerNext bs).idx = s.idx := rfl
@[simp] theorem State.answerNext_buf (bs : List Bit) : (s.answerNext bs).buf = s.buf := rfl
@[simp] theorem State.answerNext_devId (bs : List Bit) : (s.answerNext bs).devId = s.devId := rfl
@[simp] theorem State.answerNext_cal (bs : List Bit) : (s.answerNext bs).cal = s.cal := rfl
@[simp] theorem State.answerNext_ut (bs : List Bit) : (s.answerNext bs).ut = s.ut := rfl
@[simp] theorem State.answerNext_up (bs : List Bit) : (s.answerNext bs).up = s.up := rfl
@[simp] theorem State.answerNext_failStep (bs : List Bit) : (s.answerNext bs).failStep = s.failStep := rfl
@[simp] theorem State.answerNext_failPhase (bs : List Bit) : (s.answerNext bs).failPhase = s.failPhase := rfl
@[simp] theorem State.answerNext_errCode (bs : List Bit) : (s.answerNext bs).errCode = s.errCode := rfl
@[simp] theorem State.answerNext_result (bs : List Bit) : (s.answerNext bs).result = s.result := rfl
@[simp] theorem State.answerNext_trace (bs : List Bit) : (s.answerNext bs).trace = s.trace := rfl
@[simp] theorem State.answerNext_fault (bs : List Bit) : (s.answerNext bs).fault = s.fault := rfl
@[simp] theorem State.answerNext_refused (bs : List Bit) : (s.answerNext bs).refused = s.refused := rfl
@[simp] theorem State.answerNext_ret (bs : List Bit) : (s.answerNext bs).ret = s.ret := rfl
@[simp] theorem State.answerNext_env (bs : List Bit) : (s.answerNext bs).env = { s.env with answers := bs ++ s.env.answers } := rfl
@[simp] theorem State.answerNext_pending (bs : List Bit) : (s.answerNext bs).pending = s.pending := rfl

/-! ### State.invokeFirst -/

@[simp] theorem State.invokeFirst_cfg (x : Word) : (s.invokeFirst x).cfg = s.cfg := rfl
@[simp] theorem State.invokeFirst_lines (x : Word) : (s.invokeFirst x).lines = s.lines := rfl
@[simp] theorem State.invokeFirst_begun (x : Word) : (s.invokeFirst x).begun = s.begun := rfl
@[simp] theorem State.invokeFirst_phase (x : Word) : (s.invokeFirst x).phase = s.phase := rfl
@[simp] theorem State.invokeFirst_w (x : Word) : (s.invokeFirst x).w = s.w := rfl
@[simp] theorem State.invokeFirst_lastAck (x : Word) : (s.invokeFirst x).lastAck = s.lastAck := rfl
@[simp] theorem State.invokeFirst_r (x : Word) : (s.invokeFirst x).r = s.r := rfl
@[simp] theorem State.invokeFirst_step (x : Word) : (s.invokeFirst x).step = s.step := rfl
@[simp] theorem State.invokeFirst_idx (x : Word) : (s.invokeFirst x).idx = s.idx := rfl
@[simp] theorem State.invokeFirst_buf (x : Word) : (s.invokeFirst x).buf = s.buf := rfl
@[simp] theorem State.invokeFirst_devId (x : Word) : (s.invokeFirst x).devId = s.devId := rfl
@[simp] theorem State.invokeFirst_cal (x : Word) : (s.invokeFirst x).cal = s.cal := rfl
@[simp] theorem State.invokeFirst_ut (x : Word) : (s.invokeFirst x).ut = s.ut := rfl
@[simp] theorem State.invokeFirst_up (x : Word) : (s.invokeFirst x).up = s.up := rfl
@[simp] theorem State.invokeFirst_failStep (x : Word) : (s.invokeFirst x).failStep = s.failStep := rfl
@[simp] theorem State.invokeFirst_failPhase (x : Word) : (s.invokeFirst x).failPhase = s.failPhase := rfl
@[simp] theorem State.invokeFirst_errCode (x : Word) : (s.invokeFirst x).errCode = s.errCode := rfl
@[simp] theorem State.invokeFirst_result (x : Word) : (s.invokeFirst x).result = s.result := rfl
@[simp] theorem State.invokeFirst_trace (x : Word) : (s.invokeFirst x).trace = s.trace := rfl
@[simp] theorem State.invokeFirst_fault (x : Word) : (s.invokeFirst x).fault = s.fault := rfl
@[simp] theorem State.invokeFirst_refused (x : Word) : (s.invokeFirst x).refused = s.refused := rfl
@[simp] theorem State.invokeFirst_ret (x : Word) : (s.invokeFirst x).ret = s.ret := rfl
@[simp] theorem State.invokeFirst_env (x : Word) : (s.invokeFirst x).env = s.env := rfl
@[simp] theorem State.invokeFirst_pending (x : Word) : (s.invokeFirst x).pending = x :: s.pending := rfl

end

end Sys2Proof.Machine
end

