-- ==== Sys2Proof/Laws/Ops.lean ====
section
/-! SUPPORT. What each shared operation of `Machine/Ops.lean` can do, said once. -/

namespace Sys2Proof.Machine

/-! ### Emitting -/

/-- Emitting events appends them to the trace, sets the lines as they say, and changes nothing else. -/
theorem State.emitAll_eq (s : State) (es : List BusEvent) :
    s.emitAll es = { s with lines := es.foldl Lines.after s.lines, trace := s.trace ++ es } := by
  induction es generalizing s with
  | nil => simp [State.emitAll]
  | cons e es ih =>
    have h : s.emitAll (e :: es) = (s.emit e).emitAll es := rfl
    rw [h, ih]
    simp [State.emit, List.append_assoc]

theorem Lines.after_startWave (l : Lines) : startWave.foldl Lines.after l = ⟨some false, some false⟩ := rfl

theorem Lines.after_stopWave (l : Lines) : stopWave.foldl Lines.after l = ⟨some true, some true⟩ := rfl

theorem Lines.after_beginWave (l : Lines) : beginWave.foldl Lines.after l = ⟨some true, some true⟩ := rfl

theorem Lines.after_writeBitWave (l : Lines) (b : Bit) :
    (writeBitWave b).foldl Lines.after l = ⟨some false, some b⟩ := rfl

theorem Lines.after_ackCheckWave (l : Lines) : ackCheckWave.foldl Lines.after l = ⟨some true, some true⟩ := rfl

theorem Lines.after_clockHigh (l : Lines) : clockHigh.foldl Lines.after l = ⟨some true, l.sda⟩ := rfl

theorem Lines.after_sendAckWave (l : Lines) : sendAckWave.foldl Lines.after l = ⟨some false, some true⟩ := rfl

theorem Lines.after_sendNackWave (l : Lines) : sendNackWave.foldl Lines.after l = ⟨some false, some true⟩ := rfl

/-! ### Sampling -/

/-- With the data line released, a sample is the environment's draw (R121). -/
theorem State.sampleBit_of_released (s : State) (h : s.lines.sda ≠ some false) : s.sampleBit = s.draw := by
  simp [State.sampleBit, h]

/-- With the data line driven low, a sample is 0 (R121). -/
theorem State.sampleBit_of_low (s : State) (h : s.lines.sda = some false) : s.sampleBit = false := by
  simp [State.sampleBit, h]

/-- A line value the environment has ready is the one drawn. -/
theorem State.draw_of_answer (s : State) {b : Bit} {bs : List Bit} (h : s.env.answers = b :: bs) : s.draw = b := by
  simp [State.draw, h]

/-! ### The marks -/

theorem State.clear_of_not_marked {s : State} (h : s.marked = false) : s.Clear := by
  simpa [State.marked, State.Clear] using h

theorem State.not_marked_of_clear {s : State} (h : s.Clear) : s.marked = false := by
  simp [State.marked, h.1, h.2]

theorem State.marked_of_not_clear {s : State} (h : ¬ s.Clear) : s.marked = true := by
  cases hm : s.marked with
  | true => rfl
  | false => exact absurd (State.clear_of_not_marked hm) h

/-- Everything an invocation can do: nothing in a marked state, the body's next state, or the mark alone. -/
theorem invoke_cases {s t : State} {body : Except Fault State} (h : invoke s body = .next t) :
    (¬ s.Clear ∧ t = s) ∨ (s.Clear ∧ body = .ok t) ∨ (s.Clear ∧ ∃ f, body = .error f ∧ t = s.raise f) := by
  unfold invoke at h
  cases hm : s.marked with
  | true =>
    have hc : ¬ s.Clear := fun c => by simp [State.not_marked_of_clear c] at hm
    simp only [hm, if_true] at h
    exact .inl ⟨hc, by injection h with h; exact h.symm⟩
  | false =>
    have hc := State.clear_of_not_marked hm
    simp only [hm] at h
    cases body with
    | ok u => exact .inr (.inl ⟨hc, by simp at h; rw [h]⟩)
    | error f => exact .inr (.inr ⟨hc, f, rfl, by simp at h; exact h.symm⟩)

theorem invoke_marked {s : State} {body : Except Fault State} (h : ¬ s.Clear) : invoke s body = .next s := by
  simp [invoke, State.marked_of_not_clear h]

theorem invoke_ok {s t : State} {body : Except Fault State} (h : s.Clear) (hb : body = .ok t) :
    invoke s body = .next t := by
  simp [invoke, State.not_marked_of_clear h, hb]

theorem invoke_error {s : State} {f : Fault} {body : Except Fault State} (h : s.Clear) (hb : body = .error f) :
    invoke s body = .next (s.raise f) := by
  simp [invoke, State.not_marked_of_clear h, hb]

/-- An invocation always answers a next state. -/
theorem invoke_next (s : State) (body : Except Fault State) : ∃ t, invoke s body = .next t := by
  unfold invoke
  split
  · exact ⟨_, rfl⟩
  · split <;> exact ⟨_, rfl⟩

/-- Every instruction is an invocation, so it always answers a next state. -/
theorem exec_next (i : Instr) (s : State) : ∃ t, exec i s = .next t := by
  cases i <;>
    simp only [exec, execBegin, execStart, execStop, execWload, execWstep, execRload, execRstep, execAstart, execSeqstep,
      execCompensate, execAcquire, execAddrW, execAddrR, execRegSelect, execCmdTemp, execCmdPres, execData, execAck,
      execNack] <;>
    exact invoke_next _ _

/-! ### Sequencing bodies -/

theorem except_bind_ok_iff {ε α β : Type} {x : Except ε α} {f : α → Except ε β} {b : β} :
    (x >>= f) = .ok b ↔ ∃ a, x = .ok a ∧ f a = .ok b := by
  cases x with
  | ok a => simp [bind, Except.bind]
  | error e => simp [bind, Except.bind]

theorem except_bind_error_iff {ε α β : Type} {x : Except ε α} {f : α → Except ε β} {e : ε} :
    (x >>= f) = .error e ↔ x = .error e ∨ ∃ a, x = .ok a ∧ f a = .error e := by
  cases x with
  | ok a => simp [bind, Except.bind]
  | error e => simp [bind, Except.bind]

/-! ### The guards -/

theorem State.engineIdle_iff (s : State) : s.engineIdle = true ↔ s.EngineIdle := by
  simp [State.engineIdle, State.EngineIdle]

theorem hostGuard_ok_iff (s : State) (u : Unit) :
    hostGuard s = .ok u ↔ s.begun = true ∧ s.step.resting = true := by
  unfold hostGuard
  cases s.begun <;> cases s.step.resting <;> simp

theorem hostGuard_ok {s : State} (h : s.HostMay) : hostGuard s = .ok () :=
  (hostGuard_ok_iff s ()).2 h.2

theorem hostGuard_notBegun {s : State} (h : s.begun = false) : hostGuard s = .error .notBegun := by
  simp [hostGuard, h]

theorem hostGuard_busy {s : State} (hb : s.begun = true) (h : s.step.resting = false) :
    hostGuard s = .error .busy := by
  simp [hostGuard, hb, h]

/-! ### Start and stop conditions -/

theorem startCondition_ok_iff (s t : State) :
    startCondition s = .ok t ↔ s.EngineIdle ∧
      t = { s with lines := ⟨some false, some false⟩, trace := s.trace ++ startWave } := by
  rw [← State.engineIdle_iff]
  unfold startCondition
  cases s.engineIdle <;> simp [State.emitAll_eq, Lines.after_startWave, eq_comm]

theorem stopCondition_ok_iff (s t : State) :
    stopCondition s = .ok t ↔ s.EngineIdle ∧
      t = { s with lines := ⟨some true, some true⟩, trace := s.trace ++ stopWave } := by
  rw [← State.engineIdle_iff]
  unfold stopCondition
  cases s.engineIdle <;> simp [State.emitAll_eq, Lines.after_stopWave, eq_comm]

/-! ### One step of the machine -/

/-- Everything a step can do: nothing with no word invoked, the mark of refusal, or the decoded instruction. -/
theorem step_cases {s : State} {o : Host.Outcome State Fault Refusal} (h : step s = o) :
    (s.pending = [] ∧ o = .next s)
    ∨ (∃ w rest e, s.pending = w :: rest ∧ decode w = .error e ∧
        o = .next { s with pending := rest, refused := true })
    ∨ (∃ w rest i, s.pending = w :: rest ∧ decode w = .ok i ∧ o = exec i { s with pending := rest }) := by
  unfold step State.fetch at h
  cases hp : s.pending with
  | nil => simp only [hp] at h; exact .inl ⟨rfl, h.symm⟩
  | cons w rest =>
    simp only [hp] at h
    cases hd : decode w with
    | error e => simp only [hd] at h; exact .inr (.inl ⟨w, rest, e, rfl, hd, h.symm⟩)
    | ok i => simp only [hd] at h; exact .inr (.inr ⟨w, rest, i, rfl, hd, h.symm⟩)

end Sys2Proof.Machine
end

