-- ==== Sys2Proof/Laws/Compensation.lean ====
section
/-! SUPPORT. What a node of the calculator can do, and what COMPENSATE can do. -/

namespace Sys2Proof.Machine

theorem nodeS_ok_iff (n : NodeId) (v a : Int) : nodeS n v = .ok a ↔ inS32 v ∧ a = v := by
  unfold nodeS
  split
  · next h => simpa [eq_comm] using fun _ : v = a => h
  · next h => simp [h]

theorem nodeS_error_iff (n : NodeId) (v : Int) (e : CompError) :
    nodeS n v = .error e ↔ ¬ inS32 v ∧ e = .ovf n := by
  unfold nodeS
  split <;> simp_all [eq_comm]

theorem nodeU_ok_iff (n : NodeId) (v a : Int) : nodeU n v = .ok a ↔ inU32 v ∧ a = v := by
  unfold nodeU
  split
  · next h => simpa [eq_comm] using fun _ : v = a => h
  · next h => simp [h]

theorem nodeU_error_iff (n : NodeId) (v : Int) (e : CompError) :
    nodeU n v = .error e ↔ ¬ inU32 v ∧ e = .ovf n := by
  unfold nodeU
  split <;> simp_all [eq_comm]

theorem divisor_ok_iff (n : NodeId) (v : Int) (u : Unit) : divisor n v = .ok u ↔ v ≠ 0 := by
  unfold divisor
  split <;> simp_all

theorem divisor_error_iff (n : NodeId) (v : Int) (e : CompError) :
    divisor n v = .error e ↔ v = 0 ∧ e = .div0 n := by
  unfold divisor
  split <;> simp_all [eq_comm]

/-- A signed node and what follows it: the value goes on, or its overflow is the outcome. -/
theorem nodeS_bind {α : Type} (n : NodeId) (v : Int) (f : Int → Except CompError α) :
    (nodeS n v >>= f) = if ¬ inS32 v then .error (.ovf n) else f v := by
  unfold nodeS
  split <;> simp_all [bind, Except.bind]

theorem nodeU_bind {α : Type} (n : NodeId) (v : Int) (f : Int → Except CompError α) :
    (nodeU n v >>= f) = if ¬ inU32 v then .error (.ovf n) else f v := by
  unfold nodeU
  split <;> simp_all [bind, Except.bind]

theorem divisor_bind {α : Type} (n : NodeId) (v : Int) (f : Unit → Except CompError α) :
    (divisor n v >>= f) = if v = 0 then .error (.div0 n) else f () := by
  unfold divisor
  split <;> simp_all [bind, Except.bind]

/-- COMPENSATE stores the calculator's outcome, where it is admitted. -/
theorem compensate_ok_iff (s t : State) :
    compensate s = .ok t ↔
      s.begun = true ∧ s.step.resting = true ∧
        ∃ i, s.compInput = some i ∧ t = s.setCompResult (compResult (comp i s.cfg.oss.toNat)) := by
  unfold compensate
  cases s.begun <;> cases s.step.resting <;> simp
  cases s.compInput <;> simp [eq_comm]

theorem compensate_error_cases {s : State} {f : Fault} (h : compensate s = .error f) :
    (s.begun = false ∧ f = .notBegun)
    ∨ (s.begun = true ∧ s.step.resting = false ∧ f = .busy)
    ∨ (s.begun = true ∧ s.step.resting = true ∧ s.compInput = none ∧ f = .unpopulated) := by
  unfold compensate at h
  cases hb : s.begun <;> cases hr : s.step.resting <;> simp [hb, hr] at h <;> simp [h]
  cases hi : s.compInput <;> simp [hi] at h
  simp [h]

end Sys2Proof.Machine
end

