-- ==== Sys2Proof/Laws/Engine.lean ====
section
/-! SUPPORT. What the byte sub-machines' operations can do: the state each procedure of `Machine/ByteWrite.lean` and
`Machine/ByteRead.lean` leaves, written out once. -/

namespace Sys2Proof.Machine

theorem countDown_val (n : Fin 9) : (countDown n).val = n.val - 1 := rfl

/-! ### Writing -/

theorem wload_ok_iff (byte : Byte) (succ err : Phase) (s t : State) :
    wload byte succ err s = .ok t ↔ s.EngineIdle ∧ t = { s with w := ⟨.shift, byte, 8, succ, err⟩ } := by
  rw [← State.engineIdle_iff]
  unfold wload
  cases s.engineIdle <;> simp [State.setW, eq_comm]

theorem wload_error_iff (byte : Byte) (succ err : Phase) (s : State) (f : Fault) :
    wload byte succ err s = .error f ↔ ¬ s.EngineIdle ∧ f = .engineBusy := by
  rw [← State.engineIdle_iff]
  unfold wload
  cases s.engineIdle <;> simp [eq_comm]

/-- A write bit step (R142): one bit on the line, the byte shifted, the counter one lower. -/
theorem writeBit_eq (s : State) :
    writeBit s =
      { s with
        lines := ⟨some false, some (s.w.byte.getLsbD 7)⟩
        trace := s.trace ++ writeBitWave (s.w.byte.getLsbD 7)
        w := { s.w with
          state := if countDown s.w.bits = 0 then .ackCheck else .shift
          byte := s.w.byte <<< 1
          bits := countDown s.w.bits } } := by
  simp [writeBit, State.emitAll_eq, State.setW, Lines.after_writeBitWave]

/-- The line value the acknowledge check samples: the environment's draw, the line being released. -/
def ackDraw (s : State) : Bit :=
  State.draw { s with lines := ⟨some true, some true⟩, trace := s.trace ++ ackCheckWave }

/-- An acknowledge check (R143): the sampled bit goes to `last_ack` and selects the continuation. -/
theorem ackCheck_eq (s : State) :
    ackCheck s =
      ({ s with
        lines := ⟨some false, some true⟩
        trace := s.trace ++ (ackCheckWave ++ [.sample (ackDraw s), .scl false])
        env := s.env.advance
        lastAck := some (ackDraw s)
        w := { s.w with state := .idle }
        phase := s.w.continuation (ackDraw s) }, ackReturn (ackDraw s)) := by
  simp [ackCheck, State.emitAll_eq, State.setW, State.setAck, State.setPhase, State.emit, State.sample, Lines.after,
    Lines.after_ackCheckWave, State.sampleBit, ackDraw, List.append_assoc]

/-- With a line value ready, that is the one an acknowledge check draws. -/
theorem ackDraw_of_answer {s : State} {b : Bit} {bs : List Bit} (h : s.env.answers = b :: bs) : ackDraw s = b :=
  State.draw_of_answer _ h

/-- Everything a WSTEP can do (R142 to R145). -/
theorem wstep_cases {s t : State} {r : WReturn} (h : wstep s = .ok (t, r)) :
    (s.w.state = .shift ∧ s.w.bits ≠ 0 ∧ t = writeBit s ∧ r = .inProgress)
    ∨ ((s.w.state = .ackCheck ∨ (s.w.state = .shift ∧ s.w.bits = 0)) ∧ (t, r) = ackCheck s) := by
  unfold wstep at h
  cases hs : s.w.state with
  | idle => simp [hs] at h
  | shift =>
    by_cases hb : s.w.bits = 0
    · simp only [hs, hb, if_true] at h
      exact .inr ⟨.inr ⟨rfl, hb⟩, by injection h with h; exact h.symm⟩
    · simp only [hs, hb, if_false] at h
      injection h with h
      injection h with h1 h2
      exact .inl ⟨rfl, hb, h1.symm, h2.symm⟩
  | ackCheck =>
    simp only [hs] at h
    exact .inr ⟨.inl rfl, by injection h with h; exact h.symm⟩

theorem wstep_error_iff (s : State) (f : Fault) : wstep s = .error f ↔ s.w.state = .idle ∧ f = .notLoaded := by
  unfold wstep
  cases s.w.state with
  | idle => simp [eq_comm]
  | shift => by_cases hb : s.w.bits = 0 <;> simp [hb]
  | ackCheck => simp

/-! ### Reading -/

theorem rload_ok_iff (sendNack : Bool) (succ : Phase) (s t : State) :
    rload sendNack succ s = .ok t ↔ s.EngineIdle ∧ t = { s with r := ⟨.priming, 0, 0, sendNack, succ⟩ } := by
  rw [← State.engineIdle_iff]
  unfold rload
  cases s.engineIdle <;> simp [State.setR, eq_comm]

theorem rload_error_iff (sendNack : Bool) (succ : Phase) (s : State) (f : Fault) :
    rload sendNack succ s = .error f ↔ ¬ s.EngineIdle ∧ f = .engineBusy := by
  rw [← State.engineIdle_iff]
  unfold rload
  cases s.engineIdle <;> simp [eq_comm]

/-- The priming step (R162). -/
theorem readPrime_eq (s : State) :
    readPrime s =
      { s with
        lines := ⟨s.lines.scl, some true⟩
        trace := s.trace ++ [.sda true]
        r := { s.r with state := .reading, bits := 8 } } := by
  simp [readPrime, State.emit, State.setR, Lines.after]

/-- The line value a read bit step samples. -/
def readDraw (s : State) : Bit :=
  State.sampleBit { s with lines := ⟨some true, s.lines.sda⟩, trace := s.trace ++ clockHigh }

/-- With the data line released and a line value ready, that is the one a read bit step samples. -/
theorem readDraw_of_answer {s : State} {b : Bit} {bs : List Bit} (hl : s.lines.sda ≠ some false)
    (h : s.env.answers = b :: bs) : readDraw s = b := by
  have h1 : readDraw s =
      State.draw { s with lines := ⟨some true, s.lines.sda⟩, trace := s.trace ++ clockHigh } :=
    State.sampleBit_of_released _ hl
  rw [h1]
  exact State.draw_of_answer _ h

/-- A read bit step (R163). -/
theorem readBit_eq (s : State) :
    readBit s =
      { s with
        lines := ⟨some false, s.lines.sda⟩
        trace := s.trace ++ (clockHigh ++ [.sample (readDraw s), .scl false])
        env := s.env.advance
        r := { s.r with
          state := if readCountAfter s = 0 then slotState s.r.nack else .reading
          byte := shiftIn s.r.byte (readDraw s)
          bits := readCountAfter s } } := by
  simp [readBit, State.emitAll_eq, State.setR, State.emit, State.sample, Lines.after, Lines.after_clockHigh, readDraw,
    List.append_assoc]

theorem readCountAfter_of_ne {s : State} (h : s.r.bits ≠ 0) : readCountAfter s = countDown s.r.bits := by
  simp [readCountAfter, h]

/-- Sending ACK (R164). -/
theorem readSendAck_eq (s : State) :
    readSendAck s =
      { s with
        lines := ⟨some false, some true⟩
        trace := s.trace ++ sendAckWave
        r := { s.r with state := .idle }
        phase := s.r.succ } := by
  simp [readSendAck, State.emitAll_eq, State.setR, State.setPhase, Lines.after_sendAckWave]

/-- Sending NACK (R165). -/
theorem readSendNack_eq (s : State) :
    readSendNack s =
      { s with
        lines := ⟨some false, some true⟩
        trace := s.trace ++ sendNackWave
        r := { s.r with state := .idle }
        phase := s.r.succ } := by
  simp [readSendNack, State.emitAll_eq, State.setR, State.setPhase, Lines.after_sendNackWave]

/-- Everything an RSTEP can do (R162 to R166). -/
theorem rstep_cases {s t : State} {r : RReturn} (h : rstep s = .ok (t, r)) :
    (s.r.state = .priming ∧ t = readPrime s ∧ r = .inProgress)
    ∨ (s.r.state = .reading ∧ t = readBit s ∧ r = .inProgress)
    ∨ (s.r.state = .sendAck ∧ t = readSendAck s ∧ r = .complete)
    ∨ (s.r.state = .sendNack ∧ t = readSendNack s ∧ r = .complete) := by
  unfold rstep at h
  cases hs : s.r.state <;> simp only [hs] at h <;> first | (cases h; done) | skip
  all_goals
    injection h with h
    injection h with h1 h2
    simp [h1.symm, h2.symm]

theorem rstep_error_iff (s : State) (f : Fault) : rstep s = .error f ↔ s.r.state = .idle ∧ f = .notLoaded := by
  unfold rstep
  cases s.r.state <;> simp [eq_comm]

end Sys2Proof.Machine
end

