-- ==== Sys2Proof/Laws/Sequencer.lean ====
section
/-! SUPPORT. What ASTART, SEQSTEP and each of its phases can do, said once. -/

namespace Sys2Proof.Machine

/-! ### ASTART -/

theorem astart_ok_iff (s t : State) :
    astart s = .ok t ↔
      s.begun = true ∧ s.step.resting = true ∧ s.EngineIdle ∧ s.BusIdle ∧ t = s.clearAcquisition := by
  rw [← State.engineIdle_iff]
  unfold astart
  cases s.begun <;> cases s.step.resting <;> cases s.engineIdle <;> simp [State.BusIdle]
  by_cases h : s.lines = ⟨some true, some true⟩ <;> simp [h, eq_comm]

/-! ### The step table -/

/-- The steps without a row are those no acquisition is in (R182). -/
theorem stepRow_none_iff (c : Cfg) (st : Step) : stepRow c st = none ↔ st.resting = true := by
  cases st <;> simp [stepRow, Step.resting]

theorem resting_eq_false_of_row {c : Cfg} {st : Step} {row : StepRow} (h : stepRow c st = some row) :
    st.resting = false := by
  cases hr : st.resting with
  | false => rfl
  | true => rw [(stepRow_none_iff c st).2 hr] at h; cases h

/-- Every step with a row has a successor (R181). -/
theorem next_isSome_of_row {c : Cfg} {st : Step} {row : StepRow} (h : stepRow c st = some row) :
    ∃ nxt, st.next = some nxt := by
  cases st <;> simp [stepRow, Step.next] at h ⊢

/-- `next(s) = s + 1` in the codes of R87 (R181). -/
theorem next_rank {st nxt : Step} (h : st.next = some nxt) : nxt.rank = st.rank + 1 := by
  cases st <;> simp [Step.next] at h <;> subst h <;> rfl

/-- A read step reads 1, 2 or 3 bytes (R67). -/
theorem count_of_read {c : Cfg} {st : Step} {reg : Byte} {n : Nat} {tg : Target}
    (h : stepRow c st = some (.read reg n tg)) : 1 ≤ n ∧ n ≤ 3 := by
  cases st <;> simp [stepRow] at h <;> omega

/-! ### The phases -/

/-- Everything a write phase can do (R186): load and send the first bit, send a bit, or check the acknowledgement. -/
theorem writePhase_cases {byte : Byte} {succ : Phase} {s u : State} (h : writePhase byte succ s = .ok u) :
    (s.EngineIdle ∧ u = writeBit { s with w := ⟨.shift, byte, 8, succ, .stopFail⟩ })
    ∨ (s.w.state = .shift ∧ s.w.bits ≠ 0 ∧ u = writeBit s)
    ∨ ((s.w.state = .ackCheck ∨ (s.w.state = .shift ∧ s.w.bits = 0)) ∧ ackDraw s = false ∧ u = (ackCheck s).1)
    ∨ ((s.w.state = .ackCheck ∨ (s.w.state = .shift ∧ s.w.bits = 0)) ∧ ackDraw s = true
        ∧ u = (ackCheck s).1.recordFail s.step s.phase) := by
  unfold writePhase at h
  by_cases hi : s.w.state = .idle
  · simp only [hi, if_true] at h
    obtain ⟨t, ht, h⟩ := except_bind_ok_iff.1 h
    obtain ⟨he, rfl⟩ := (wload_ok_iff _ _ _ _ _).1 ht
    obtain ⟨⟨v, res⟩, hv, h⟩ := except_bind_ok_iff.1 h
    rcases wstep_cases hv with ⟨_, _, rfl, rfl⟩ | ⟨hk, _⟩
    · exact .inl ⟨he, by injection h with h; exact h.symm⟩
    · rcases hk with hk | ⟨_, hk⟩
      · exact absurd hk (by simp)
      · exact absurd (show (8 : Fin 9) = 0 from hk) (by decide)
  · simp only [hi, if_false] at h
    obtain ⟨t, ht, h⟩ := except_bind_ok_iff.1 h
    cases ht
    obtain ⟨⟨v, res⟩, hv, h⟩ := except_bind_ok_iff.1 h
    rcases wstep_cases hv with ⟨h1, h2, rfl, rfl⟩ | ⟨hk, ha⟩
    · exact .inr (.inl ⟨h1, h2, by injection h with h; exact h.symm⟩)
    · rw [ackCheck_eq] at ha
      injection ha with h1 h2
      subst h1 h2
      injection h with h
      rw [ackCheck_eq]
      cases hd : ackDraw s with
      | false =>
        refine .inr (.inr (.inl ⟨hk, rfl, ?_⟩))
        rw [← h]; simp [hd, ackReturn]
      | true =>
        refine .inr (.inr (.inr ⟨hk, rfl, ?_⟩))
        rw [← h]; simp [hd, ackReturn]

/-- Everything the READ phase can do (R192): load and prime, prime, take a bit, or answer the byte and store it. -/
theorem phaseRead_cases {row : StepRow} {s u : State} (h : phaseRead row s = .ok u) :
    (s.EngineIdle ∧ u = readPrime { s with
        r := ⟨.priming, 0, 0, decide (s.idx.val + 1 = row.count),
          if s.idx.val + 1 = row.count then .stop else .read⟩ })
    ∨ (s.r.state = .priming ∧ u = readPrime s)
    ∨ (s.r.state = .reading ∧ u = readBit s)
    ∨ (s.r.state = .sendAck ∧ storeByte (readSendAck s) = .ok u)
    ∨ (s.r.state = .sendNack ∧ storeByte (readSendNack s) = .ok u) := by
  unfold phaseRead at h
  by_cases hi : s.r.state = .idle
  · simp only [hi, if_true] at h
    obtain ⟨t, ht, h⟩ := except_bind_ok_iff.1 h
    obtain ⟨he, rfl⟩ := (rload_ok_iff _ _ _ _).1 ht
    obtain ⟨⟨v, res⟩, hv, h⟩ := except_bind_ok_iff.1 h
    rcases rstep_cases hv with ⟨_, rfl, rfl⟩ | ⟨h1, _⟩ | ⟨h1, _⟩ | ⟨h1, _⟩
    · refine .inl ⟨he, ?_⟩
      injection h with h
      rw [← h]
      simp
    · exact absurd h1 (by simp)
    · exact absurd h1 (by simp)
    · exact absurd h1 (by simp)
  · simp only [hi, if_false] at h
    obtain ⟨t, ht, h⟩ := except_bind_ok_iff.1 h
    cases ht
    obtain ⟨⟨v, res⟩, hv, h⟩ := except_bind_ok_iff.1 h
    rcases rstep_cases hv with ⟨h1, rfl, rfl⟩ | ⟨h1, rfl, rfl⟩ | ⟨h1, rfl, rfl⟩ | ⟨h1, rfl, rfl⟩
    · exact .inr (.inl ⟨h1, by injection h with h; exact h.symm⟩)
    · exact .inr (.inr (.inl ⟨h1, by injection h with h; exact h.symm⟩))
    · exact .inr (.inr (.inr (.inl ⟨h1, h⟩)))
    · exact .inr (.inr (.inr (.inr ⟨h1, h⟩)))

/-- Storing a byte (R192): there is an element for it, and `idx` is one higher. -/
theorem storeByte_cases {s u : State} (h : storeByte s = .ok u) :
    ∃ b, s.buf.set s.idx.val s.r.byte = some b ∧ u = { s with buf := b, idx := s.idx + 1 } := by
  unfold storeByte at h
  split at h
  · next b hb => exact ⟨b, hb, by injection h with h; exact h.symm⟩
  · cases h

/-- Everything a commit can do (R194): the target's value is assembled from received bytes, and nothing else changes. -/
theorem commit_cases {row : StepRow} {s u : State} (h : commit row s = .ok u) :
    (row.isRead = false ∧ u = s)
    ∨ (∃ reg n b0, row = .read reg n .devId ∧ s.buf.b0 = some b0 ∧ u = { s with devId := some b0 })
    ∨ (∃ reg n f b0 b1, row = .read reg n (.cal f) ∧ s.buf.b0 = some b0 ∧ s.buf.b1 = some b1 ∧
        u = { s with cal := s.cal.set f (asm16 b0 b1) })
    ∨ (∃ reg n b0 b1, row = .read reg n .ut ∧ s.buf.b0 = some b0 ∧ s.buf.b1 = some b1 ∧
        u = { s with ut := some (asm16 b0 b1) })
    ∨ (∃ reg n b0 b1 b2, row = .read reg n .up ∧ s.buf.b0 = some b0 ∧ s.buf.b1 = some b1 ∧ s.buf.b2 = some b2 ∧
        u = { s with up := some (assembleUp s.cfg.oss b0 b1 b2) }) := by
  unfold commit at h
  split at h
  · left; exact ⟨rfl, by injection h with h; exact h.symm⟩
  · left; exact ⟨rfl, by injection h with h; exact h.symm⟩
  · split at h
    · next hb0 => right; left; exact ⟨_, _, _, rfl, hb0, by injection h with h; exact h.symm⟩
    · cases h
  · split at h
    · next hb0 hb1 => right; right; left; exact ⟨_, _, _, _, _, rfl, hb0, hb1, by injection h with h; exact h.symm⟩
    · cases h
  · split at h
    · next hb0 hb1 =>
      right; right; right; left; exact ⟨_, _, _, _, rfl, hb0, hb1, by injection h with h; exact h.symm⟩
    · cases h
  · split at h
    · next hb0 hb1 hb2 =>
      right; right; right; right; exact ⟨_, _, _, _, _, rfl, hb0, hb1, hb2, by injection h with h; exact h.symm⟩
    · cases h

/-! ### SEQSTEP -/

/-- What a SEQSTEP that answers a state has passed (R184). -/
theorem seqstep_ok_iff (s t : State) (r : SeqReturn) :
    seqstep s = .ok (t, r) ↔
      s.begun = true ∧ ∃ row, stepRow s.cfg s.step = some row ∧ inconsistent row s = false ∧
        seqDispatch row s = .ok t ∧ r = t.step.seqReturn := by
  unfold seqstep
  cases s.begun with
  | false => simp
  | true =>
    cases hr : stepRow s.cfg s.step with
    | none => simp
    | some row =>
      cases hi : inconsistent row s with
      | true => simp [hi]
      | false =>
        simp only [Bool.not_true, Bool.false_eq_true, if_false, true_and, hi]
        constructor
        · intro h
          obtain ⟨u, hu, h⟩ := except_bind_ok_iff.1 h
          injection h with h
          injection h with h1 h2
          subst h1
          exact ⟨row, rfl, hi, hu, h2.symm⟩
        · rintro ⟨row', h1, _, h3, rfl⟩
          cases h1
          exact except_bind_ok_iff.2 ⟨t, h3, rfl⟩

/-- Everything SEQSTEP's dispatch can do, phase by phase (R184). -/
theorem seqDispatch_cases {row : StepRow} {s t : State} (h : seqDispatch row s = .ok t) :
    (∃ sleep, row = .wait sleep ∧ waitStep sleep s = .ok t)
    ∨ (row.isWait = false ∧
        ((s.phase = .start ∧ phaseStart s = .ok t)
        ∨ (s.phase = .addressW ∧ writePhase (addrWByte s.cfg) .registerSelect s = .ok t)
        ∨ (∃ reg n tg, s.phase = .registerSelect ∧ row = .read reg n tg ∧ writePhase reg .restart s = .ok t)
        ∨ (∃ reg cmd, s.phase = .registerSelect ∧ row = .write reg cmd ∧ writePhase reg .writeData s = .ok t)
        ∨ (∃ reg cmd, s.phase = .writeData ∧ row = .write reg cmd ∧ writePhase cmd .stop s = .ok t)
        ∨ (s.phase = .restart ∧ phaseRestart s = .ok t)
        ∨ (s.phase = .addressR ∧ writePhase (addrRByte s.cfg) .read s = .ok t)
        ∨ (s.phase = .read ∧ phaseRead row s = .ok t)
        ∨ (s.phase = .stop ∧ phaseStop row s = .ok t)
        ∨ (s.phase = .stopFail ∧ phaseStopFail s = .ok t))) := by
  cases row with
  | wait sleep => exact .inl ⟨sleep, rfl, h⟩
  | read reg n tg =>
    refine .inr ⟨rfl, ?_⟩
    simp only [seqDispatch, phaseAddressW, phaseRegisterSelect, phaseWriteData, phaseAddressR] at h
    cases hp : s.phase <;> simp [hp] at h <;> simp [h]
  | write reg cmd =>
    refine .inr ⟨rfl, ?_⟩
    simp only [seqDispatch, phaseAddressW, phaseRegisterSelect, phaseWriteData, phaseAddressR] at h
    cases hp : s.phase <;> simp [hp] at h <;> simp [h]

theorem phaseStart_ok_iff (s t : State) :
    phaseStart s = .ok t ↔ s.EngineIdle ∧
      t = { s with lines := ⟨some false, some false⟩, trace := s.trace ++ startWave, phase := .addressW } := by
  unfold phaseStart
  rw [except_bind_ok_iff]
  simp only [startCondition_ok_iff, State.setPhase, pure, Except.pure, Except.ok.injEq]
  constructor
  · rintro ⟨u, ⟨he, rfl⟩, rfl⟩; exact ⟨he, rfl⟩
  · rintro ⟨he, rfl⟩; exact ⟨_, ⟨he, rfl⟩, rfl⟩

theorem phaseRestart_ok_iff (s t : State) :
    phaseRestart s = .ok t ↔ s.EngineIdle ∧
      t = { s with lines := ⟨some false, some false⟩, trace := s.trace ++ startWave, phase := .addressR } := by
  unfold phaseRestart
  rw [except_bind_ok_iff]
  simp only [startCondition_ok_iff, State.setPhase, pure, Except.pure, Except.ok.injEq]
  constructor
  · rintro ⟨u, ⟨he, rfl⟩, rfl⟩; exact ⟨he, rfl⟩
  · rintro ⟨he, rfl⟩; exact ⟨_, ⟨he, rfl⟩, rfl⟩

theorem phaseStopFail_ok_iff (s t : State) :
    phaseStopFail s = .ok t ↔ s.EngineIdle ∧
      t = { s with lines := ⟨some true, some true⟩, trace := s.trace ++ stopWave, step := .failed, phase := .idle,
                   errCode := .busAck } := by
  unfold phaseStopFail
  rw [except_bind_ok_iff]
  simp only [stopCondition_ok_iff, pure, Except.pure, Except.ok.injEq]
  constructor
  · rintro ⟨u, ⟨he, rfl⟩, rfl⟩; exact ⟨he, rfl⟩
  · rintro ⟨he, rfl⟩; exact ⟨_, ⟨he, rfl⟩, rfl⟩

/-- Phase STOP (R193): the stop condition, the commit, and the next logical step. -/
theorem phaseStop_cases {row : StepRow} {s t : State} (h : phaseStop row s = .ok t) :
    s.EngineIdle ∧ ∃ u nxt,
      commit row { s with lines := ⟨some true, some true⟩, trace := s.trace ++ stopWave } = .ok u ∧
        s.step.next = some nxt ∧ t = u.enter nxt (entryPhase nxt) := by
  unfold phaseStop at h
  obtain ⟨v, hv, h⟩ := except_bind_ok_iff.1 h
  obtain ⟨he, rfl⟩ := (stopCondition_ok_iff _ _).1 hv
  obtain ⟨u, hu, h⟩ := except_bind_ok_iff.1 h
  split at h
  · next nxt hn => exact ⟨he, u, nxt, hu, hn, by injection h with h; exact h.symm⟩
  · cases h

/-- A wait step (R199). -/
theorem waitStep_cases {sleep : BusEvent} {s t : State} (h : waitStep sleep s = .ok t) :
    ∃ nxt, s.step.next = some nxt ∧ t = (s.emit sleep).enter nxt .start := by
  unfold waitStep at h
  split at h
  · next nxt hn => exact ⟨nxt, hn, by injection h with h; exact h.symm⟩
  · cases h

end Sys2Proof.Machine
end

