-- ==== Sys2Proof/Laws/Acquire.lean ====
section
/-! SUPPORT. What the loop of ACQUIRE can do. -/

namespace Sys2Proof.Machine

theorem acquireLoop_zero (s : State) : acquireLoop 0 s = .ok s := rfl

/-- One turn of the loop, and the rest of it while SEQSTEP returns RUNNING. -/
theorem acquireLoop_succ_ok_iff (n : Nat) (s t : State) :
    acquireLoop (n + 1) s = .ok t ↔
      ∃ u r, seqstep s = .ok (u, r) ∧
        if r = .running then acquireLoop n u = .ok t else t = u := by
  conv_lhs => unfold acquireLoop
  cases h : seqstep s with
  | error f => simp
  | ok p =>
    obtain ⟨u, r⟩ := p
    cases r <;> simp [eq_comm]

/-- Everything ACQUIRE's body can do. -/
theorem acquireOp_ok_iff (s t : State) :
    acquireOp s = .ok t ↔
      ∃ u v, astart s = .ok u ∧ acquireLoop acquireBound u = .ok v ∧
        if v.step = .failed then t = v.setBusError else compensate v = .ok t := by
  unfold acquireOp
  simp only [except_bind_ok_iff]
  constructor
  · rintro ⟨u, hu, v, hv, h⟩
    refine ⟨u, v, hu, hv, ?_⟩
    split at h
    · next hf => simp only [hf, if_true]; injection h with h; exact h.symm
    · next hf => simpa only [hf, if_false] using h
  · rintro ⟨u, v, hu, hv, h⟩
    refine ⟨u, hu, v, hv, ?_⟩
    split at h
    · next hf => rw [h]; simp only [hf, if_true]; rfl
    · next hf => simpa only [hf, if_false] using h

end Sys2Proof.Machine
end

