-- ==== Sys2Proof/Laws/BusItems.lean ====
section
/-! SUPPORT. What runs of write and read steps can do, and what the bus patterns can do. -/

namespace Sys2Proof.Machine

theorem wsteps_zero (s : State) : wsteps 0 s = .ok (s, .inProgress) := rfl

/-- A run of write steps is one step and a shorter run. -/
theorem wsteps_succ_ok_iff (n : Nat) (s t : State) (r : WReturn) :
    wsteps (n + 1) s = .ok (t, r) ↔ ∃ u q, wstep s = .ok (u, q) ∧ wsteps n u = .ok (t, r) := by
  have h1 : wsteps (n + 1) s = (wstep s >>= fun p => wsteps n p.1) := rfl
  rw [h1, except_bind_ok_iff]
  constructor
  · rintro ⟨⟨u, q⟩, hu, h⟩
    exact ⟨u, q, hu, h⟩
  · rintro ⟨u, q, hu, h⟩
    exact ⟨(u, q), hu, h⟩

theorem rsteps_zero (s : State) : rsteps 0 s = .ok (s, .inProgress) := rfl

/-- A run of read steps is one step and a shorter run. -/
theorem rsteps_succ_ok_iff (n : Nat) (s t : State) (r : RReturn) :
    rsteps (n + 1) s = .ok (t, r) ↔ ∃ u q, rstep s = .ok (u, q) ∧ rsteps n u = .ok (t, r) := by
  have h1 : rsteps (n + 1) s = (rstep s >>= fun p => rsteps n p.1) := rfl
  rw [h1, except_bind_ok_iff]
  constructor
  · rintro ⟨⟨u, q⟩, hu, h⟩
    exact ⟨u, q, hu, h⟩
  · rintro ⟨u, q, hu, h⟩
    exact ⟨(u, q), hu, h⟩

/-- Everything sending a byte can do. -/
theorem sendByte_ok_iff (byte : Byte) (succ : Phase) (s t : State) :
    sendByte byte succ s = .ok t ↔
      s.begun = true ∧ s.step.resting = true ∧ s.EngineIdle ∧
        ∃ u r, wsteps 8 { s with w := ⟨.shift, byte, 8, succ, .stopFail⟩ } = .ok (u, r) ∧
          t = u.returning (.wstep r) := by
  unfold sendByte
  simp only [except_bind_ok_iff, hostGuard_ok_iff, wload_ok_iff]
  constructor
  · rintro ⟨_, ⟨hb, hr⟩, v, ⟨he, rfl⟩, ⟨u, r⟩, hu, h⟩
    exact ⟨hb, hr, he, u, r, hu, by injection h with h; exact h.symm⟩
  · rintro ⟨hb, hr, he, u, r, hu, rfl⟩
    exact ⟨(), ⟨hb, hr⟩, _, ⟨he, rfl⟩, ⟨u, r⟩, hu, rfl⟩

/-- Everything receiving a byte can do. -/
theorem receiveByte_cases {d : Byte} {s t : State} (h : receiveByte d s = .ok t) :
    s.begun = true ∧ s.step.resting = true ∧ s.r.state = .priming ∧
      ∃ u r, rsteps 9 (s.answerNext (wireBits d)) = .ok (u, r) ∧ t = u.returning (.rstep r) := by
  unfold receiveByte at h
  obtain ⟨_, hg, h⟩ := except_bind_ok_iff.1 h
  obtain ⟨hb, hr⟩ := (hostGuard_ok_iff _ _).1 hg
  split at h
  · next hp =>
    obtain ⟨⟨u, r⟩, hu, h⟩ := except_bind_ok_iff.1 h
    exact ⟨hb, hr, hp, u, r, hu, by injection h with h; exact h.symm⟩
  · split at h <;> cases h

/-- Everything an acknowledge slot can do. -/
theorem ackSlot_cases {v : Bit} {s t : State} (h : ackSlot v s = .ok t) :
    s.begun = true ∧ s.step.resting = true ∧
      ((∃ u r, (s.w.state = .ackCheck ∨ (s.w.state = .shift ∧ s.w.bits = 0)) ∧
          wstep (s.answerNext [v]) = .ok (u, r) ∧ t = u.returning (.wstep r))
        ∨ (∃ u r, s.r.state = slotState v ∧ rstep s = .ok (u, r) ∧ t = u.returning (.rstep r))) := by
  unfold ackSlot at h
  obtain ⟨_, hg, h⟩ := except_bind_ok_iff.1 h
  obtain ⟨hb, hr⟩ := (hostGuard_ok_iff _ _).1 hg
  refine ⟨hb, hr, ?_⟩
  split at h
  · next hw =>
    obtain ⟨⟨u, r⟩, hu, h⟩ := except_bind_ok_iff.1 h
    exact .inl ⟨u, r, hw, hu, by injection h with h; exact h.symm⟩
  · split at h
    · next hs =>
      obtain ⟨⟨u, r⟩, hu, h⟩ := except_bind_ok_iff.1 h
      exact .inr ⟨u, r, hs, hu, by injection h with h; exact h.symm⟩
    · split at h <;> cases h

end Sys2Proof.Machine
end

