-- ==== Sys2Proof/Laws/Decode.lean ====
section
/-! SUPPORT. The phase codes are one to one, and the fields of an assembled word are the ones it was assembled from. -/

namespace Sys2Proof

theorem phaseOfCode_code (p : Phase) : phaseOfCode p.code = some p := by cases p <;> rfl

theorem code_of_phaseOfCode {c : BitVec 4} {p : Phase} (h : phaseOfCode c = some p) : p.code = c := by
  revert c p
  decide

theorem phaseOfCode_none_iff (c : BitVec 4) : phaseOfCode c = none ↔ 10 ≤ c.toNat := by
  revert c
  decide

variable (opc succ err : BitVec 4) (k : Bool) (imm : Byte)

theorem opWord_toNat :
    (opWord opc succ err k imm).toNat =
      opc.toNat * 2 ^ 20 + succ.toNat * 2 ^ 16 + err.toNat * 2 ^ 12 + k.toNat * 2 ^ 8 + imm.toNat := by
  have h1 := opc.isLt
  have h2 := succ.isLt
  have h3 := err.isLt
  have h4 := imm.isLt
  have h5 : k.toNat < 2 := by cases k <;> simp
  simp only [opWord, BitVec.toNat_append, BitVec.toNat_ofBool]
  rw [← Nat.shiftLeft_add_eq_or_of_lt (by simpa using h4), ← Nat.shiftLeft_add_eq_or_of_lt (by simpa using h5),
    ← Nat.shiftLeft_add_eq_or_of_lt (by simp), ← Nat.shiftLeft_add_eq_or_of_lt (by simpa using h3),
    ← Nat.shiftLeft_add_eq_or_of_lt (by simpa using h2)]
  simp only [Nat.shiftLeft_eq]
  simp
  omega

theorem opcField_opWord : opcField (opWord opc succ err k imm) = opc := by
  have h1 := opc.isLt
  have h2 := succ.isLt
  have h3 := err.isLt
  have h4 := imm.isLt
  have h5 : k.toNat < 2 := by cases k <;> simp
  apply BitVec.eq_of_toNat_eq
  simp only [opcField, BitVec.extractLsb'_toNat, opWord_toNat, Nat.shiftRight_eq_div_pow]
  omega

theorem succField_opWord : succField (opWord opc succ err k imm) = succ := by
  have h1 := opc.isLt
  have h2 := succ.isLt
  have h3 := err.isLt
  have h4 := imm.isLt
  have h5 : k.toNat < 2 := by cases k <;> simp
  apply BitVec.eq_of_toNat_eq
  simp only [succField, BitVec.extractLsb'_toNat, opWord_toNat, Nat.shiftRight_eq_div_pow]
  omega

theorem errField_opWord : errField (opWord opc succ err k imm) = err := by
  have h1 := opc.isLt
  have h2 := succ.isLt
  have h3 := err.isLt
  have h4 := imm.isLt
  have h5 : k.toNat < 2 := by cases k <;> simp
  apply BitVec.eq_of_toNat_eq
  simp only [errField, BitVec.extractLsb'_toNat, opWord_toNat, Nat.shiftRight_eq_div_pow]
  omega

theorem immField_opWord : immField (opWord opc succ err k imm) = imm := by
  have h4 := imm.isLt
  apply BitVec.eq_of_toNat_eq
  simp only [immField, BitVec.extractLsb'_toNat, opWord_toNat, Nat.shiftRight_eq_div_pow]
  omega

/-- A mask over two fields side by side is a mask over each. -/
theorem append_and_append {n m : Nat} (a c : BitVec n) (b d : BitVec m) :
    (a ++ b) &&& (c ++ d) = (a &&& c) ++ (b &&& d) := by
  apply BitVec.eq_of_getLsbD_eq
  intro i hi
  simp only [BitVec.getLsbD_and, BitVec.getLsbD_append]
  split <;> rfl

/-- WLOAD's mask does not see the byte. -/
theorem opWord_and_wloadMask :
    (opWord opc succ err k imm).toNat &&& 0xF00F00 = (opWord opc succ err k 0).toNat &&& 0xF00F00 := by
  have h := fun b => congrArg BitVec.toNat
    (append_and_append (opc ++ succ ++ err ++ (0 : BitVec 3) ++ BitVec.ofBool k) 0xF00F#16 b 0#8)
  have h1 := (h imm).trans (by simp) |>.trans (h 0).symm
  exact h1

end Sys2Proof
end

