-- ==== Sys2Proof/Laws/Memory.lean ====
section
/-! SUPPORT. The sensor register space keeps its canonical form, and reads see writes. -/

namespace Sys2Proof.Machine

theorem Memory.wf_iff (m : Memory) :
    m.wf = true ↔ m.Pairwise (fun a b => a.1 < b.1) ∧ ∀ c ∈ m, c.1 < 256 ∧ c.2 ≠ unlistedByte := by
  simp [Memory.wf]

theorem Memory.nil_wf : Memory.wf [] = true := by decide

theorem Memory.wf_tail {c : Host.Cell} {m : Memory} (h : Memory.wf (c :: m) = true) : m.wf = true := by
  rw [Memory.wf_iff] at h ⊢
  exact ⟨(List.pairwise_cons.1 h.1).2, fun d hd => h.2 d (List.mem_cons_of_mem _ hd)⟩

theorem mem_cellFor {a : Nat} {v : Byte} {c : Host.Cell} (h : c ∈ cellFor a v) : c = (a, v) ∧ v ≠ unlistedByte := by
  unfold cellFor at h
  split at h
  · cases h
  · next hv => exact ⟨by simpa using h, hv⟩

theorem cellFor_append_wf {a : Nat} {v : Byte} {m : Memory} (ha : a < 256) (hm : m.wf = true)
    (hlt : ∀ c ∈ m, a < c.1) : Memory.wf (cellFor a v ++ m) = true := by
  rw [Memory.wf_iff] at hm ⊢
  refine ⟨List.pairwise_append.2 ⟨?_, hm.1, fun x hx y hy => ?_⟩, fun c hc => ?_⟩
  · unfold cellFor; split <;> simp
  · rw [(mem_cellFor hx).1]; exact hlt y hy
  · rcases List.mem_append.1 hc with h | h
    · obtain ⟨rfl, hv⟩ := mem_cellFor h; exact ⟨ha, hv⟩
    · exact hm.2 c h

/-- Every cell of a written memory is the written one or an old one. -/
theorem Memory.mem_write {m : Memory} {a : Nat} {v : Byte} {c : Host.Cell} (h : c ∈ m.write a v) :
    c.1 = a ∨ c ∈ m := by
  induction m with
  | nil => left; rw [(mem_cellFor h).1]
  | cons d m ih =>
    unfold Memory.write at h
    split at h
    · rcases List.mem_append.1 h with h | h
      · left; rw [(mem_cellFor h).1]
      · exact .inr h
    · split at h
      · rcases List.mem_append.1 h with h | h
        · left; rw [(mem_cellFor h).1]
        · exact .inr (List.mem_cons_of_mem _ h)
      · rcases List.mem_cons.1 h with h | h
        · exact .inr (h ▸ List.mem_cons_self)
        · exact (ih h).imp id (List.mem_cons_of_mem _)

/-- A write keeps the canonical form. -/
theorem Memory.write_wf {m : Memory} {a : Nat} (v : Byte) (ha : a < 256) (hm : m.wf = true) :
    (m.write a v).wf = true := by
  induction m with
  | nil =>
    have h := cellFor_append_wf (v := v) ha Memory.nil_wf (by simp)
    rwa [List.append_nil] at h
  | cons c m ih =>
    have hw := (Memory.wf_iff _).1 hm
    have hp := List.pairwise_cons.1 hw.1
    unfold Memory.write
    split
    · next hlt =>
      refine cellFor_append_wf ha hm fun d hd => ?_
      rcases List.mem_cons.1 hd with rfl | hd
      · exact hlt
      · exact hlt.trans (hp.1 d hd)
    · split
      · next _ heq => exact cellFor_append_wf ha (Memory.wf_tail hm) fun d hd => by rw [heq]; exact hp.1 d hd
      · next hge hne =>
        have iw := (Memory.wf_iff _).1 (ih (Memory.wf_tail hm))
        rw [Memory.wf_iff]
        refine ⟨List.pairwise_cons.2 ⟨fun d hd => ?_, iw.1⟩, fun d hd => ?_⟩
        · rcases Memory.mem_write hd with h | h
          · omega
          · exact hp.1 d h
        · rcases List.mem_cons.1 hd with rfl | hd
          · exact hw.2 _ List.mem_cons_self
          · exact iw.2 d hd

theorem Memory.read_of_forall_ne {m : Memory} {a : Nat} (h : ∀ c ∈ m, c.1 ≠ a) : m.read a = unlistedByte := by
  induction m with
  | nil => rfl
  | cons c m ih =>
    unfold Memory.read
    rw [if_neg (h c List.mem_cons_self)]
    exact ih fun d hd => h d (List.mem_cons_of_mem _ hd)

theorem read_cellFor_append {m : Memory} {a b : Nat} {v : Byte} (h : a ≠ b) :
    Memory.read (cellFor a v ++ m) b = Memory.read m b := by
  unfold cellFor
  split
  · rfl
  · simp [Memory.read, h]

theorem read_cellFor_append_same {m : Memory} {a : Nat} {v : Byte} (h : m.read a = unlistedByte) :
    Memory.read (cellFor a v ++ m) a = v := by
  unfold cellFor
  split
  · next hv => simp [h, hv]
  · simp [Memory.read]

/-- A read after a write to the same address gives the byte written. -/
theorem Memory.read_write_same {m : Memory} (hm : m.wf = true) (a : Nat) (v : Byte) :
    (m.write a v).read a = v := by
  induction m with
  | nil =>
    have h := read_cellFor_append_same (m := []) (a := a) (v := v) rfl
    rwa [List.append_nil] at h
  | cons c m ih =>
    have hp := List.pairwise_cons.1 ((Memory.wf_iff _).1 hm).1
    unfold Memory.write
    split
    · next hlt =>
      refine read_cellFor_append_same (Memory.read_of_forall_ne fun d hd => ?_)
      rcases List.mem_cons.1 hd with rfl | hd
      · omega
      · have := hp.1 d hd; omega
    · split
      · next _ heq =>
        refine read_cellFor_append_same (Memory.read_of_forall_ne fun d hd => ?_)
        have := hp.1 d hd; omega
      · next hge hne =>
        unfold Memory.read
        rw [if_neg fun h => hne h.symm]
        exact ih (Memory.wf_tail hm)

/-- A write leaves every other address as it was. -/
theorem Memory.read_write_other (m : Memory) {a b : Nat} (v : Byte) (h : a ≠ b) :
    (m.write a v).read b = m.read b := by
  induction m with
  | nil =>
    have := read_cellFor_append (m := []) (v := v) h
    rwa [List.append_nil] at this
  | cons c m ih =>
    unfold Memory.write
    split
    · exact read_cellFor_append h
    · split
      · next _ heq =>
        rw [read_cellFor_append h]
        conv => rhs; unfold Memory.read
        rw [if_neg (heq ▸ h)]
      · unfold Memory.read
        split
        · rfl
        · exact ih

end Sys2Proof.Machine
end

