-- ==== Sys2Proof/Laws/PerInstr.lean ====
section
/-! SUPPORT. The statements made of every instruction as syntax, one lemma for each constructor. -/

namespace Sys2Proof

/-- A word has a table row's length, and the row's fixed bits have the values the row gives them. -/
def Word.fits (x : Word) (r : TableRow) : Prop := x.nbits = r.nbits ∧ x.bits &&& r.mask = r.value

namespace Laws.EncodingMatchesRow

/-- The instruction's encoding lies in its row of the opcode table. -/
def Statement (i : Instr) : Prop := (encode i).fits i.row

theorem beginBus : Statement .beginBus := by refine ⟨rfl, ?_⟩; decide
theorem start : Statement .start := by refine ⟨rfl, ?_⟩; decide
theorem stop : Statement .stop := by refine ⟨rfl, ?_⟩; decide
theorem wload (byte : Byte) (succ err : Phase) : Statement (.wload byte succ err) := by
  refine ⟨rfl, (opWord_and_wloadMask _ _ _ _ _).trans ?_⟩
  show _ = 0x400000
  cases succ <;> cases err <;> decide
theorem wstep : Statement .wstep := by refine ⟨rfl, ?_⟩; decide
theorem rload (sendNack : Bool) (succ : Phase) : Statement (.rload sendNack succ) := by
  refine ⟨rfl, ?_⟩
  cases sendNack <;> cases succ <;> decide
theorem rstep : Statement .rstep := by refine ⟨rfl, ?_⟩; decide
theorem astart : Statement .astart := by refine ⟨rfl, ?_⟩; decide
theorem seqstep : Statement .seqstep := by refine ⟨rfl, ?_⟩; decide
theorem compensate : Statement .compensate := by refine ⟨rfl, ?_⟩; decide
theorem acquire : Statement .acquire := by refine ⟨rfl, ?_⟩; decide
theorem addrW (a : BitVec 7) : Statement (.addrW a) := by refine ⟨rfl, ?_⟩; revert a; decide
theorem addrR (a : BitVec 7) : Statement (.addrR a) := by refine ⟨rfl, ?_⟩; revert a; decide
theorem regSelect (r : Byte) : Statement (.regSelect r) := by refine ⟨rfl, ?_⟩; simp [Instr.row]
theorem cmdTemp : Statement .cmdTemp := by refine ⟨rfl, ?_⟩; decide
theorem cmdPres (o : BitVec 2) : Statement (.cmdPres o) := by refine ⟨rfl, ?_⟩; revert o; decide
theorem data (d : Byte) : Statement (.data d) := by refine ⟨rfl, ?_⟩; simp [Instr.row]
theorem ack : Statement .ack := by refine ⟨rfl, ?_⟩; decide
theorem nack : Statement .nack := by refine ⟨rfl, ?_⟩; decide

end Laws.EncodingMatchesRow

end Sys2Proof
end

