-- ==== Sys2Proof/Laws/Sensor.lean ====
section
/-! SUPPORT. On the bus the reference sensor answers a register read with the bytes of `memRead` (R61, R286). -/

namespace Sys2Proof.Machine

/-- The sensor about to drive the register its pointer names, the clock low and the master's data output released. -/
def SensorBus.answering (m : Memory) (p : Byte) : SensorBus :=
  ⟨false, true, .transmit, 0, regRead m p, (regRead m p).getLsbD 7, p, m⟩

/-- Whatever the master samples, an acknowledged byte leaves the sensor about to drive the next register. -/
theorem Sensor.observe_acked_byte (sn : Sensor) (m : Memory) (p d : Byte) :
    (readWave (wireBits d) ++ sendAckWave).foldl sn.observe (SensorBus.answering m p)
      = SensorBus.answering m (p + 1) := by
  simp [SensorBus.answering, wireBits, readWave, clockHigh, sendAckWave, Sensor.observe, SensorBus.clockRise,
    Sensor.clockFall, SensorBus.send, Sensor.gotByte, SensorBus.nextByte, SensorBus.dataChange, SensorBus.readReg]

/-- During a byte the sensor drives its bits, MSB first: one before each clock pulse. -/
theorem Sensor.drives_byte (sn : Sensor) (m : Memory) (p d : Byte) :
    ([0, 1, 2, 3, 4, 5, 6, 7].map fun k =>
        ((readWave ((wireBits d).take k)).foldl sn.observe (SensorBus.answering m p)).drive)
      = wireBits (regRead m p) := by
  simp [SensorBus.answering, wireBits, readWave, clockHigh, Sensor.observe, SensorBus.clockRise, Sensor.clockFall,
    SensorBus.send]

/-- After `ds` bytes, each acknowledged, the sensor is about to drive the register that many places on. -/
theorem Sensor.observe_acked_bytes (sn : Sensor) (m : Memory) (ds : List Byte) (p : Byte) :
    (ds.flatMap fun d => readWave (wireBits d) ++ sendAckWave).foldl sn.observe (SensorBus.answering m p)
      = SensorBus.answering m (p + BitVec.ofNat 8 ds.length) := by
  induction ds generalizing p with
  | nil => simp
  | cons d ds ih =>
    rw [List.flatMap_cons, List.foldl_append, Sensor.observe_acked_byte, ih, List.length_cons, BitVec.add_assoc]
    congr 2
    rw [Nat.add_comm, ← BitVec.ofNat_add_ofNat]
    rfl

theorem memRead_length (m : Memory) (addr : Byte) (n : Nat) : (memRead m addr n).length = n := by
  induction n generalizing addr with
  | zero => rfl
  | succ n ih => simp [memRead, ih]

/-- Byte k of a read is register `addr + k`. -/
theorem memRead_getElem (m : Memory) (addr : Byte) (n k : Nat) (h : k < n) :
    (memRead m addr n)[k]'(by rwa [memRead_length]) = regRead m (addr + BitVec.ofNat 8 k) := by
  induction n generalizing addr k with
  | zero => omega
  | succ n ih =>
    cases k with
    | zero => simp [memRead]
    | succ k =>
      simp only [memRead, List.getElem_cons_succ]
      rw [ih _ _ (by omega), BitVec.add_assoc]
      congr 2
      rw [Nat.add_comm, ← BitVec.ofNat_add_ofNat]
      rfl

/-- The k-th byte the sensor answers in a read of n registers from `addr` is the k-th of `memRead addr n` (R61). -/
theorem Sensor.answers_memRead (sn : Sensor) (m : Memory) (addr : Byte) (n : Nat) (ds : List Byte) (h : ds.length < n) :
    ((ds.flatMap fun d => readWave (wireBits d) ++ sendAckWave).foldl sn.observe (SensorBus.answering m addr)).shift
      = (memRead m addr n)[ds.length]'(by rwa [memRead_length]) := by
  rw [Sensor.observe_acked_bytes, memRead_getElem _ _ _ _ h]
  rfl

end Sys2Proof.Machine
end

