-- ==== Sys2Proof/Tests/Slice0.lean ====
section
/-! SUPPORT. Small tests, each expected value taken from the spec's rule or vector named, and for every statement with
hypotheses a state that meets them. -/

namespace Sys2Proof.Tests

open Sys2Proof Sys2Proof.Machine

/-! ### The states the tests use -/

/-- The default configuration with numerals for the OPEN parameters, so that it evaluates. -/
def cfg : Cfg := { Cfg.default with sclLine := 0, sdaLine := 1, tHalf := 1, t1Wait := 0, t2Wait := 0 }

def fresh : State := State.resetWith cfg

/-- After BEGIN, with an empty trace. -/
def ready : State := { fresh with begun := true, lines := ⟨some true, some true⟩ }

/-- Mid-transaction: the clock low, the data line released. -/
def active : State := { ready with lines := ⟨some false, some true⟩ }

def answering (s : State) (bs : List Bit) : State := { s with env := { s.env with answers := bs } }

def writing (byte : Byte) (bits : Fin 9) : State := { active with w := ⟨.shift, byte, bits, .registerSelect, .stopFail⟩ }

def checking : State := { active with w := ⟨.ackCheck, 0, 0, .registerSelect, .stopFail⟩ }

def reading (st : RState) (byte : Byte) (bits : Fin 9) (nack : Bool) : State :=
  { active with r := ⟨st, byte, bits, nack, .stop⟩ }

/-- In a step and a phase of an acquisition. -/
def inStep (st : Step) (p : Phase) : State := { active with step := st, phase := p }

/-- In a step whose transaction has not begun. -/
def entering (st : Step) (p : Phase) : State := { ready with step := st, phase := p }

def invoking (s : State) (w : BitVec 24) : State := { s with pending := [.opw24 w] }

/-- One fact of the state an outcome leaves. -/
def leaves {α : Type} (o : Host.Outcome State Fault Refusal) (f : State → α) : Option α :=
  match o with
  | .next t => some (f t)
  | .fault _ => none
  | .refused _ => none

/-- The source's calibration (R245, table T1) with its raw samples. -/
def example13 : State :=
  { ready with
    cal := ⟨some 0x0198, some 0xFFB8, some 0xC7D1, some 0x7FE5, some 0x7FF5, some 0x5A71, some 0x182E, some 0x0004,
      some 0x8000, some 0xDDF9, some 0x0B34⟩
    ut := some 0x6CFA, up := some 0x5D23 }

def exampleInput : CompInput :=
  { ac1 := 408, ac2 := -72, ac3 := -14383, ac4 := 32741, ac5 := 32757, ac6 := 23153, b1 := 6190, b2 := 4
    mb := -32768, mc := -8711, md := 2868, ut := 27898, up := 23843 }

def sensor : Sensor := ⟨0x77, [(0xAA, 0x01), (0xAB, 0x98)], 0x6CFA, 0x5D2300⟩

/-! ### Decoding: words written out from R90 to R93, R81 to R85 (V1, V3) -/

theorem test_decode_begin : decode (.opw24 0b000100000000000000000000) = .ok .beginBus := by decide
theorem test_decode_start : decode (.opw24 0b001000000000000000000000) = .ok .start := by decide
theorem test_decode_stop : decode (.opw24 0b001100000000000000000000) = .ok .stop := by decide
theorem test_decode_wload :
    decode (.opw24 0b010000111001000011101110) = .ok (.wload 0xEE .registerSelect .stopFail) := by decide
theorem test_decode_wload_largest : decode (.opw24 0x4990FF) = .ok (.wload 0xFF .stopFail .stopFail) := by decide
theorem test_decode_wstep : decode (.opw24 0b010100000000000000000000) = .ok .wstep := by decide
theorem test_decode_rload : decode (.opw24 0b011010000000000100000000) = .ok (.rload true .stop) := by decide
theorem test_decode_rload_ack : decode (.opw24 0x670000) = .ok (.rload false .read) := by decide
theorem test_decode_rstep : decode (.opw24 0b011100000000000000000000) = .ok .rstep := by decide
theorem test_decode_astart : decode (.opw24 0b100000000000000000000000) = .ok .astart := by decide
theorem test_decode_seqstep : decode (.opw24 0b100100000000000000000000) = .ok .seqstep := by decide
theorem test_decode_compensate : decode (.opw24 0b101000000000000000000000) = .ok .compensate := by decide
theorem test_decode_acquire : decode (.opw24 0b101100000000000000000000) = .ok .acquire := by decide
theorem test_decode_addrW : decode (.bus8 .address 0b11101110) = .ok (.addrW 0x77) := by decide
theorem test_decode_addrR : decode (.bus8 .address 0b11101111) = .ok (.addrR 0x77) := by decide
theorem test_decode_regSelect : decode (.bus8 .register 0b10101110) = .ok (.regSelect 0xAE) := by decide
theorem test_decode_cmdTemp : decode (.bus8 .command 0b00101110) = .ok .cmdTemp := by decide
theorem test_decode_cmdPres : decode (.bus8 .command 0b00110100) = .ok (.cmdPres 0) := by decide
theorem test_decode_cmdPres_oss : decode (.bus8 .command 0b11110100) = .ok (.cmdPres 3) := by decide
theorem test_decode_data : decode (.bus8 .data 0b01010101) = .ok (.data 0x55) := by decide
theorem test_decode_ack : decode (.ack1 false) = .ok .ack := by decide
theorem test_decode_nack : decode (.ack1 true) = .ok .nack := by decide

/-- V1's refused words. -/
theorem test_decode_refused :
    [0x000000, 0xC00000, 0xD00000, 0xE00000, 0xF00000, 0xFFFFFF, 0x4A00EE, 0x43F0EE, 0x4391EE, 0x4392EE, 0x680101,
      0x681100, 0x6A0000, 0x100001, 0x500001, 0x980000].all (fun w => (decodeTableWord 24 w).isNone) = true := by
  decide

theorem test_decode_command_other : decode (.bus8 .command 0x00) = .error .notACommandByte := by decide
theorem test_tableWord_command : decodeTableWord 8 0x2E = some .cmdTemp := by decide
theorem test_tableWord_address : decodeTableWord 8 0xEE = some (.addrW 0x77) := by decide
theorem test_tableWord_length : decodeTableWord 16 0x1000 = none := by decide
theorem test_encode_wload : encode (.wload 0xEE .registerSelect .stopFail) = .opw24 0x4390EE := by decide

/-! ### Well-formedness: each check refuses an ill-formed term (R81 to R83) -/

theorem test_wf_addrW : (Instr.addrW 0x77).wf cfg = true ∧ (Instr.addrW 0x76).wf cfg = false := by decide
theorem test_wf_addrR : (Instr.addrR 0x77).wf cfg = true ∧ (Instr.addrR 0x76).wf cfg = false := by decide
theorem test_wf_regSelect :
    (Instr.regSelect 0xBE).wf cfg = true ∧ (Instr.regSelect 0xAB).wf cfg = false := by decide
theorem test_wf_cmdTemp :
    Instr.cmdTemp.wf cfg = true ∧ Instr.cmdTemp.wf { cfg with cmdTemp := 0x2F } = false := by decide
theorem test_wf_cmdPres :
    (Instr.cmdPres 0).wf cfg = true ∧ (Instr.cmdPres 1).wf cfg = false
      ∧ (Instr.cmdPres 0).wf { cfg with cmdPres := 0x35 } = false := by decide

/-! ### One step of each instruction -/

/-- V10. -/
theorem test_begin :
    leaves (exec .beginBus fresh) (fun t => (t.trace, t.lines, t.begun))
      = some ([.scl true, .sda true], ⟨some true, some true⟩, true) := by decide

/-- V11. -/
theorem test_start :
    leaves (exec .start ready) (fun t => (t.trace, t.lines))
      = some ([.sda true, .scl true, .half, .sda false, .half, .scl false], ⟨some false, some false⟩) := by decide

/-- V16: START before BEGIN. -/
theorem test_start_notBegun :
    leaves (exec .start fresh) (fun t => (t.fault, t.trace)) = some (some .notBegun, []) := by decide

/-- V12. -/
theorem test_stop :
    leaves (exec .stop active) (fun t => (t.trace, t.lines))
      = some ([.sda false, .scl true, .half, .sda true, .half], ⟨some true, some true⟩) := by decide

/-- R141's example. -/
theorem test_wload :
    leaves (exec (.wload 0xEE .registerSelect .stopFail) ready) (fun t => (t.w, t.trace))
      = some (⟨.shift, 0xEE, 8, .registerSelect, .stopFail⟩, []) := by decide

/-- R142's example. -/
theorem test_wstep_bit :
    leaves (exec .wstep (writing 0xA5 8)) (fun t => (t.trace, t.w.byte, t.w.bits, t.ret))
      = some ([.sda true, .half, .scl true, .half, .scl false], 0x4A, 7, .wstep .inProgress) := by decide

/-- R143's example. -/
theorem test_wstep_ack :
    leaves (exec .wstep (answering checking [false])) (fun t => (t.trace, t.phase, t.lastAck, t.ret))
      = some ([.sda true, .half, .scl true, .half, .sample false, .scl false], .registerSelect, some false,
          .wstep .ack) := by decide

/-- R161's example. -/
theorem test_rload :
    leaves (exec (.rload true .stop) ready) (fun t => t.r) = some ⟨.priming, 0, 0, true, .stop⟩ := by decide

/-- R163: the last bit of a byte, with a bit already shifted in. -/
theorem test_rstep_bit :
    leaves (exec .rstep (answering (reading .reading 0x2A 1 true) [true])) (fun t => (t.trace, t.r.byte, t.r.state))
      = some ([.half, .scl true, .half, .sample true, .scl false], 0x55, .sendNack) := by decide

/-- R164's waveform. -/
theorem test_rstep_sendAck :
    leaves (exec .rstep (reading .sendAck 0x55 0 false)) (fun t => (t.trace, t.r.state, t.r.byte, t.phase, t.ret))
      = some ([.sda false, .half, .scl true, .half, .scl false, .sda true], .idle, 0x55, .stop,
          .rstep .complete) := by decide

/-- R183: the CalibrationSet and the samples are cleared. -/
theorem test_astart :
    leaves (exec .astart example13) (fun t => (t.step, t.phase, t.cal, t.ut, t.up))
      = some (.readDeviceId, .start, Calibration.empty, none, none) := by decide

/-- R183: the bus must be idle. -/
theorem test_astart_busNotIdle : leaves (exec .astart active) (fun t => t.fault) = some (some .busNotIdle) := by decide

/-- R188: in READ_AC3 the register byte is 0xAE and its success continuation RESTART. -/
theorem test_seqstep_register :
    leaves (exec .seqstep (inStep .readAC3 .registerSelect)) (fun t => (t.w, t.lines, t.phase, t.ret))
      = some (⟨.shift, 0x5C, 7, .restart, .stopFail⟩, ⟨some false, some true⟩, .registerSelect,
          .seqstep .running) := by decide

/-- R193, R194: at the end of READ_MD, the commit and the next step. -/
theorem test_seqstep_stop :
    leaves (exec .seqstep { inStep .readMD .stop with idx := 2, buf := ⟨some 0x0B, some 0x34, none⟩ })
        (fun t => (t.cal.md, t.step, t.phase, t.idx))
      = some (some 0x0B34, .triggerTemp, .start, 0) := by decide

/-- R245: COMPENSATE on the source's example. -/
theorem test_compensate :
    leaves (exec .compensate example13) (fun t => (t.result, t.errCode)) = some (some (.ok 150 69964), .none) := by
  decide

/-- R12: a missing sample. -/
theorem test_compensate_unpopulated :
    leaves (exec .compensate { example13 with up := none }) (fun t => (t.fault, t.result))
      = some (some .unpopulated, none) := by decide

/-- R204, V48: the first address byte is not acknowledged. -/
theorem test_acquire_nack :
    leaves (exec .acquire (answering ready [true])) (fun t => (t.result, t.step, t.errCode, t.lines))
      = some (some (.err .busAck (.bus (some .readDeviceId) (some .addressW))), .failed, .busAck,
          ⟨some true, some true⟩) := by decide

theorem test_addrW :
    leaves (exec (.addrW 0x77) active) (fun t => (t.trace, t.w.state))
      = some (byteWave 0xEE, .ackCheck) := by decide
theorem test_addrR :
    leaves (exec (.addrR 0x77) active) (fun t => (t.trace, t.w.succ)) = some (byteWave 0xEF, .read) := by decide
theorem test_regSelect :
    leaves (exec (.regSelect 0xF4) active) (fun t => (t.trace, t.w.succ)) = some (byteWave 0xF4, .writeData) := by decide
theorem test_cmdTemp : leaves (exec .cmdTemp active) (fun t => t.trace) = some (byteWave 0x2E) := by decide
theorem test_cmdPres : leaves (exec (.cmdPres 0) active) (fun t => t.trace) = some (byteWave 0x34) := by decide
theorem test_data :
    leaves (exec (.data 0x55) (reading .priming 0 0 true)) (fun t => (t.r, t.trace))
      = some (⟨.sendNack, 0x55, 0, true, .stop⟩, .sda true :: readWave
          [false, true, false, true, false, true, false, true]) := by decide
theorem test_ack_sampled : leaves (exec .ack checking) (fun t => (t.lastAck, t.phase)) = some (some false, .registerSelect) := by
  decide
theorem test_nack_driven :
    leaves (exec .nack (reading .sendNack 0x55 0 true)) (fun t => (t.trace, t.phase))
      = some ([.sda true, .half, .scl true, .half, .scl false], .stop) := by decide

/-- V2: a refused word marks, and BEGIN after it does nothing. -/
theorem test_refused :
    leaves (step (invoking ready 0x000000)) (fun t => (t.refused, t.trace, t.fault)) = some (true, [], none) := by decide

theorem test_withFetchWord :
    leaves (step (fresh.withFetchWord 24 0x100000)) (fun t => (t.begun, t.pending)) = some (true, []) := by decide

/-! ### The reference sensor (R286) -/

theorem test_sensor_acknowledges : sensor.drives (startWave ++ byteWave 0xEE ++ [.sda true]) = false := by decide
theorem test_sensor_other_address : sensor.drives (startWave ++ byteWave 0xEC ++ [.sda true]) = true := by decide
/-- With the pointer at 0xD0, a read-mode address byte has the sensor about to answer `MemRead(0xD0, 1)`, the chip ID (R61, R286). -/
theorem test_sensor_answers_id :
    ((byteWave 0xEF ++ ackSlotWave false).foldl sensor.observe ⟨false, false, .address, 0, 0, true, 0xD0, sensor.regs⟩).shift
        = 0x55
      ∧ memRead sensor.regs 0xD0 1 = [0x55] ∧ memRead sensor.regs 0xAA 2 = [0x01, 0x98] := by decide

/-- The sensor about to drive register 0xAA in a read. -/
def driving : SensorBus := ⟨false, true, .transmit, 0, 0x01, false, 0xAA, sensor.regs⟩

/-- The pointer advances past a byte answered with NACK too, and the sensor drives nothing more. -/
theorem test_sensor_nack :
    ((readWave (wireBits 0x01) ++ sendNackWave).foldl sensor.observe driving).ptr = 0xAB
      ∧ ((readWave (wireBits 0x01) ++ sendNackWave).foldl sensor.observe driving).mode = .silent := by decide

/-- After a byte answered with ACK the next register's byte is driven. -/
theorem test_sensor_ack :
    ((readWave (wireBits 0x01) ++ sendAckWave).foldl sensor.observe driving).shift = 0x98 := by decide
theorem test_memory_write_removes : Memory.write [(0xAA, 0x01)] 0xAA 0 = [] := by decide

/-! ### States that meet the statements' hypotheses, clause by clause -/

theorem witness_OperandlessWords :
    ((0x100001 : BitVec 24).extractLsb' 20 4).toNat ∈ [1, 2, 3, 5, 7, 8, 9, 10, 11]
      ∧ (0x100001 : BitVec 24).extractLsb' 0 20 ≠ 0 := by decide

theorem witness_OperandFields :
    ((0x4990FF : BitVec 24).extractLsb' 20 4).toNat = 4 ∧ ((0x680100 : BitVec 24).extractLsb' 20 4).toNat = 6
      ∧ 10 ≤ (10 : BitVec 4).toNat ∧ 10 ≤ (15 : BitVec 4).toNat := by decide

theorem witness_StepRunsDecoded :
    (invoking ready 0x200000).pending = [.opw24 0x200000] ∧ decode (.opw24 0x200000) = .ok .start
      ∧ ready.pending = [] ∧ decodeTableWord 24 0x200000 = some .start := by decide

theorem witness_MarksAreSticky_refused :
    (invoking ready 0).pending = [.opw24 0] ∧ decode (.opw24 0) = .error .reservedOpcode := by decide

theorem witness_MarksAreSticky_marked :
    (ready.raise .busy).fault ≠ none ∧ ready.refuse.refused = true
      ∧ step (invoking (ready.raise .busy) 0x200000) = .next (ready.raise .busy) := by
  refine ⟨by decide, by decide, rfl⟩

theorem witness_NotBegunFaults : Instr.start ≠ .beginBus ∧ fresh.Clear ∧ fresh.begun = false := by decide

theorem witness_InFlightOnlySeqstep :
    Instr.start ≠ .seqstep ∧ (entering .readDeviceId .start).Clear ∧ (entering .readDeviceId .start).begun = true
      ∧ (entering .readDeviceId .start).step.resting = false := by decide

/-- Every instruction answers a next state somewhere, which is all `OperationFrames` asks. -/
theorem witness_OperationFrames (i : Instr) : ∃ t, exec i ready = .next t := exec_next i ready

/-- A step that samples, from a state that meets the engine's invariants. -/
theorem witness_step_keeps_engine :
    EngineInv (invoking checking 0x500000) ∧ ReleasedInv (invoking checking 0x500000)
      ∧ ∃ t, step (invoking checking 0x500000) = .next t := by
  refine ⟨by decide, by decide, _, rfl⟩

theorem witness_LinesHoldLastEmitted :
    LinesInv (invoking fresh 0x100000) ∧ ∃ t, step (invoking fresh 0x100000) = .next t := by
  refine ⟨by decide, _, rfl⟩

/-- A state mid-read: the data line is released. -/
theorem witness_DataLineReleasedForRead :
    EngineInv (invoking (reading .reading 0 8 true) 0x700000)
      ∧ (invoking (reading .reading 0 8 true) 0x700000).r.state = .reading
      ∧ ReleasedInv (invoking (reading .reading 0 8 true) 0x700000)
      ∧ ∃ t, step (invoking (reading .reading 0 8 true) 0x700000) = .next t := by
  refine ⟨by decide, by decide, by decide, _, rfl⟩

/-- Right after ASTART, all the machine's invariants hold and an acquisition is in flight. -/
theorem witness_MachineInv : MachineInv (invoking (entering .readDeviceId .start) 0x900000) := by
  refine ⟨by decide, ?_, by decide⟩
  show FlightInv (.read 0xD0 1 .devId) _
  refine ⟨by decide, by decide, by decide, by decide, by decide, by decide, by decide, by decide, by decide, by decide,
    by decide, by decide, by decide⟩

theorem witness_MachineInvariantKept :
    ∃ t, step (invoking (entering .readDeviceId .start) 0x900000) = .next t := ⟨_, rfl⟩

theorem witness_SeqstepNeverFaults :
    (invoking (entering .readDeviceId .start) 0x900000).Clear
      ∧ (invoking (entering .readDeviceId .start) 0x900000).step.resting = false := by decide

theorem witness_ResetState : fresh = State.resetWith cfg := rfl

/-- The largest legal register addresses, and the next ones. -/
theorem witness_ConstructionChecksConfig :
    configOk { cfg with regCal0 := 0xEA, regOut := 0xFD } = true ∧ configOk { cfg with regCal0 := 0xEC } = false
      ∧ configOk { cfg with regCal0 := 0xAB } = false ∧ configOk { cfg with regOut := 0xFE } = false
      ∧ configOk { cfg with sdaLine := 0 } = false ∧ configOk { cfg with tHalf := 0 } = false
      ∧ configOk { cfg with oss := 1 } = false ∧ configOk { cfg with cacheCal := true } = false := by decide

theorem witness_HalfEventsPerOperation :
    [(Instr.start, active), (.rstep, reading .priming 0 0 true), (.rstep, reading .reading 0 8 true),
        (.seqstep, entering .waitT1 .idle), (.seqstep, inStep .readUT .read), (.seqstep, entering .readUT .start),
        (.beginBus, active)].all (fun p =>
      isOperation p.1 && decide (p.1 ≠ .acquire) && !p.2.marked
        && decide (leaves (exec p.1 p.2) (fun t => t.fault) = some none)) = true := by decide

theorem witness_BeginEffect :
    (fresh.Clear ∧ fresh.step.resting = true ∧ fresh.EngineIdle)
      ∧ ((entering .readDeviceId .start).Clear ∧ (entering .readDeviceId .start).step.resting = false)
      ∧ (checking.Clear ∧ checking.step.resting = true ∧ ¬ checking.EngineIdle) := by decide

/-- For `StartStopEffect` and `LoadEffect`. -/
theorem witness_engine_idle_and_busy :
    (ready.HostMay ∧ ready.EngineIdle) ∧ (checking.HostMay ∧ ¬ checking.EngineIdle) := by decide

theorem witness_WstepEffect_bit :
    ((writing 0xA5 8).HostMay ∧ (writing 0xA5 8).w.state = .shift ∧ (writing 0xA5 8).w.bits.val = (7 : Fin 9).val + 1)
      ∧ (writing 0xA5 1).w.bits.val = (0 : Fin 9).val + 1 := by decide

theorem witness_WstepEffect_ack :
    (checking.HostMay ∧ checking.w.state = .ackCheck)
      ∧ ((writing 0 0).HostMay ∧ (writing 0 0).w.state = .shift ∧ (writing 0 0).w.bits = 0) := by decide

theorem witness_RstepReadsBits :
    ((reading .priming 0 0 true).HostMay ∧ (reading .priming 0 0 true).r.state = .priming)
      ∧ ((reading .reading 0 8 true).HostMay ∧ (reading .reading 0 8 true).r.state = .reading
        ∧ (reading .reading 0 8 true).r.bits.val = (7 : Fin 9).val + 1)
      ∧ (reading .reading 0 1 true).r.bits.val = (0 : Fin 9).val + 1 := by decide

theorem witness_RstepAnswersByte :
    ((reading .sendAck 0 0 false).HostMay ∧ (reading .sendAck 0 0 false).r.state = .sendAck)
      ∧ ((reading .sendNack 0 0 true).HostMay ∧ (reading .sendNack 0 0 true).r.state = .sendNack) := by decide

theorem witness_UnloadedStepFaults : ready.HostMay ∧ ready.w.state = .idle ∧ ready.r.state = .idle := by decide

/-- For `WriteByteWhole`, `ReadByteWhole` and `BytePatternsSent`, with an answer ready. -/
theorem witness_Free :
    (answering active [true]).Free ∧ (answering active [true]).env.answers = true :: []
      ∧ (answering active (wireBits 0x55)).Free
      ∧ (answering active (wireBits 0x55)).env.answers = wireBits 0x55 ++ [] := by decide

theorem witness_StepOrder :
    Step.next .idle = some .readDeviceId ∧ Step.next .readUP = some .done ∧ Step.code .done = 19 := by decide

theorem witness_AstartEffect :
    ready.MayAcquire ∧ (fresh.Clear ∧ fresh.begun = false)
      ∧ ((entering .readUP .start).begun = true ∧ (entering .readUP .start).step.resting = false)
      ∧ (checking.begun = true ∧ checking.step.resting = true ∧ ¬ checking.EngineIdle)
      ∧ (active.begun = true ∧ active.step.resting = true ∧ active.EngineIdle ∧ ¬ active.BusIdle) := by decide

theorem witness_SeqstepStarts :
    ((entering .triggerTemp .start).EngineIdle
        ∧ (entering .triggerTemp .start).InStep (.write 0xF4 0x2E) .start)
      ∧ ((inStep .readUP .restart).EngineIdle ∧ (inStep .readUP .restart).InStep (.read 0xF6 3 .up) .restart
        ∧ (StepRow.read 0xF6 3 .up).isRead = true) := by decide

/-- The four phases that send a byte. -/
theorem witness_SeqstepWritesByte_phases :
    (inStep .readUT .addressW).InStep (.read 0xF6 2 .ut) .addressW
      ∧ writeItem cfg (.read 0xF6 2 .ut) .addressW = some (0xEE, .registerSelect)
      ∧ (inStep .readUT .registerSelect).InStep (.read 0xF6 2 .ut) .registerSelect
      ∧ writeItem cfg (.read 0xF6 2 .ut) .registerSelect = some (0xF6, .restart)
      ∧ (inStep .triggerTemp .writeData).InStep (.write 0xF4 0x2E) .writeData
      ∧ writeItem cfg (.write 0xF4 0x2E) .writeData = some (0x2E, .stop)
      ∧ (inStep .readUT .addressR).InStep (.read 0xF6 2 .ut) .addressR
      ∧ writeItem cfg (.read 0xF6 2 .ut) .addressR = some (0xEF, .read) := by decide

/-- The write sub-machine's states in such a phase. -/
theorem witness_SeqstepWritesByte_states :
    ((inStep .readUT .addressW).r.state = .idle ∧ (inStep .readUT .addressW).w.state = .idle)
      ∧ (∃ s : State, s.InStep (.read 0xF6 2 .ut) .addressW ∧ s.r.state = .idle ∧ s.w.state = .shift
        ∧ s.w.bits.val = (0 : Fin 9).val + 1)
      ∧ (∃ s : State, s.InStep (.read 0xF6 2 .ut) .addressW ∧ s.r.state = .idle ∧ s.w.state = .ackCheck)
      ∧ (∃ s : State, s.InStep (.read 0xF6 2 .ut) .addressW ∧ s.r.state = .idle ∧ s.w.state = .shift
        ∧ s.w.bits = 0) := by
  refine ⟨by decide, ⟨{ writing 0xEE 1 with step := .readUT, phase := .addressW }, by decide⟩,
    ⟨{ checking with step := .readUT, phase := .addressW }, by decide⟩,
    ⟨{ writing 0 0 with step := .readUT, phase := .addressW }, by decide⟩⟩

theorem witness_SeqstepReadsByte :
    ((inStep .readUT .read).InStep (.read 0xF6 2 .ut) .read ∧ (inStep .readUT .read).w.state = .idle
        ∧ (inStep .readUT .read).r.state = .idle ∧ (inStep .readUT .read).idx.val < 2)
      ∧ (∃ s : State, s.InStep (.read 0xF6 2 .ut) .read ∧ s.w.state = .idle ∧ s.r.state = .reading
        ∧ s.r.bits.val = (7 : Fin 9).val + 1)
      ∧ (∃ s : State, s.InStep (.read 0xF6 3 .up) .read ∧ s.w.state = .idle ∧ s.r.state = .sendNack
        ∧ s.buf.set s.idx.val s.r.byte = some ⟨none, none, some 0x55⟩) := by
  refine ⟨by decide, ⟨{ reading .reading 0 8 true with step := .readUT, phase := .read }, by decide⟩,
    ⟨{ reading .sendNack 0x55 0 true with step := .readUP, phase := .read, idx := 2 }, by decide⟩⟩

/-- A state at the end of a transaction of each kind of row. -/
theorem witness_SeqstepStopCommits :
    ((inStep .triggerTemp .stop).InStep (.write 0xF4 0x2E) .stop ∧ (inStep .triggerTemp .stop).EngineIdle
        ∧ Step.next .triggerTemp = some .waitT1 ∧ (StepRow.write 0xF4 0x2E).isWrite = true)
      ∧ ((inStep .readDeviceId .stop).InStep (.read 0xD0 1 .devId) .stop
        ∧ Step.next .readDeviceId = some .readAC1)
      ∧ ((inStep .readAC1 .stop).InStep (.read 0xAA 2 (.cal .ac1)) .stop ∧ Step.next .readAC1 = some .readAC2)
      ∧ ((inStep .readUT .stop).InStep (.read 0xF6 2 .ut) .stop ∧ Step.next .readUT = some .triggerPressure)
      ∧ ((inStep .readUP .stop).InStep (.read 0xF6 3 .up) .stop ∧ Step.next .readUP = some .done) := by decide

/-- The buffer full, as those rows need it. -/
theorem witness_SeqstepStopCommits_buffer :
    ∃ s : State, s.InStep (.read 0xF6 3 .up) .stop ∧ s.EngineIdle ∧ s.buf.b0 = some 1 ∧ s.buf.b1 = some 2
      ∧ s.buf.b2 = some 3 :=
  ⟨{ inStep .readUP .stop with buf := ⟨some 1, some 2, some 3⟩ }, by decide⟩

theorem witness_SeqstepStopFail :
    (inStep .readUT .stopFail).InStep (.read 0xF6 2 .ut) .stopFail ∧ (inStep .readUT .stopFail).EngineIdle := by decide

theorem witness_SeqstepWaits :
    ((entering .waitT1 .idle).Clear ∧ (entering .waitT1 .idle).begun = true ∧ (entering .waitT1 .idle).phase = .idle
        ∧ (entering .waitT1 .idle).EngineIdle ∧ (entering .waitT1 .idle).step = .waitT1)
      ∧ (entering .waitT2 .idle).step = .waitT2 := by decide

theorem witness_SeqstepRejectsInconsistent_resting :
    ready.Clear ∧ ready.begun = true ∧ ready.step.resting = true := by decide

/-- One state for each of the eight conditions of R196. -/
theorem witness_SeqstepRejectsInconsistent :
    [entering .readUT .idle, entering .waitT1 .start, inStep .readUT .writeData, inStep .triggerTemp .read,
        { checking with step := .readUT, phase := .stop }, { reading .reading 0 8 true with step := .readUT, phase := .addressW },
        { checking with step := .readUT, phase := .read }, { inStep .readUT .read with idx := 2 }].all
      (fun s => s.begun && !s.marked && (stepRow s.cfg s.step).isSome
        && (stepRow s.cfg s.step).all (fun row => inconsistent row s)) = true := by decide

theorem witness_ReadTransactionWhole :
    (∃ s : State, s.InStep (.read 0xD0 1 .devId) .start ∧ s.EngineIdle ∧ s.idx = 0
        ∧ s.env.answers = [false, false, false] ++ [0x55].flatMap wireBits ++ [])
      ∧ (∃ s : State, s.InStep (.read 0xF6 3 .up) .start ∧ s.EngineIdle ∧ s.idx = 0
        ∧ s.env.answers = [false, false, false] ++ [1, 2, 3].flatMap wireBits ++ []) := by
  refine ⟨⟨answering (entering .readDeviceId .start) ([false, false, false] ++ [0x55].flatMap wireBits), by decide⟩,
    ⟨answering (entering .readUP .start) ([false, false, false] ++ [1, 2, 3].flatMap wireBits), by decide⟩⟩

theorem witness_TriggerTransactionWhole :
    ∃ s : State, s.InStep (.write 0xF4 0x34) .start ∧ s.EngineIdle ∧ s.env.answers = [false, false, false] ++ [true] :=
  ⟨answering (entering .triggerPressure .start) [false, false, false, true], by decide⟩

theorem witness_FailurePathIsPrecise :
    ∃ s : State, s.InStep (.read 0xF6 2 .ut) .addressR ∧ (writeItem s.cfg (.read 0xF6 2 .ut) .addressR).isSome
      ∧ s.r.state = .idle ∧ s.w.state = .ackCheck ∧ s.w.err = .stopFail ∧ s.env.answers = true :: [] :=
  ⟨{ answering checking [true] with step := .readUT, phase := .addressR }, by decide⟩

/-- A state that enters each of the four steps after a stop condition. -/
theorem witness_StopBeforeRest :
    [(inStep .triggerTemp .stop, Step.waitT1), (inStep .triggerPressure .stop, .waitT2),
        ({ inStep .readUP .stop with buf := ⟨some 1, some 2, some 3⟩ }, .done), (inStep .readUT .stopFail, .failed)].all
      (fun p => !p.1.marked && decide (leaves (exec .seqstep p.1) (fun t => (t.fault, t.step)) = some (none, p.2)))
      = true := by decide

theorem witness_CompErrorNodes :
    comp { exampleInput with ut := 23153, md := 0 } 0 = .error (.div0 .t4)
      ∧ comp { exampleInput with ac4 := 0 } 0 = .error (.div0 .p18)
      ∧ comp { exampleInput with up := 0 } 0 = .error (.ovf .p16) := by decide

theorem witness_CompResultFits : comp exampleInput 0 = .ok (150, 69964) := by decide

theorem witness_CompensateEffect :
    example13.HostMay
      ∧ example13.cal = ⟨some 0x0198, some 0xFFB8, some 0xC7D1, some 0x7FE5, some 0x7FF5, some 0x5A71, some 0x182E,
        some 0x0004, some 0x8000, some 0xDDF9, some 0x0B34⟩
      ∧ example13.ut = some 0x6CFA ∧ example13.up = some 0x5D23
      ∧ (ready.HostMay ∧ ready.cal.get .md = none ∧ ready.ut = none ∧ ready.up = none) := by decide

/-- For `AcquireCompletes` and `AcquireIsStepped`. -/
theorem witness_MayAcquire : ready.MayAcquire := by decide

theorem witness_AcquireDeliversData :
    ∃ s : State, s.MayAcquire ∧ (List.replicate 11 ((1 : Byte), (2 : Byte))).length = 11
      ∧ s.env.answers = acquisitionAnswers 0x55 (List.replicate 11 (1, 2)) (3, 4) (5, 6, 7) ++ [] :=
  ⟨answering ready (acquisitionAnswers 0x55 (List.replicate 11 (1, 2)) (3, 4) (5, 6, 7) ++ []), by decide, rfl, rfl⟩

/-- Two states that differ in the history they hold; they meet the second clause's hypotheses too. -/
theorem witness_AcquireIsRepeatable :
    ∃ s₁ s₂ : State, s₁.MayAcquire ∧ s₂.MayAcquire ∧ s₁ ≠ s₂ ∧ s₁.cfg = s₂.cfg
      ∧ 272 ≤ (List.replicate 272 true).length ∧ s₁.env.answers = List.replicate 272 true ++ []
      ∧ s₂.env.answers = List.replicate 272 true ++ [false] :=
  ⟨answering ready (List.replicate 272 true ++ []),
    answering { ready with lastAck := some true } (List.replicate 272 true ++ [false]), by decide, by decide,
    fun h => absurd (congrArg State.lastAck h) (by decide), rfl,
    Nat.le_of_eq List.length_replicate.symm, rfl, rfl⟩

theorem witness_DataPatternReceived :
    (reading .priming 0 0 true).HostMay ∧ (reading .priming 0 0 true).r.state = .priming := by decide

theorem witness_AckSlotPatterns :
    (checking.HostMay ∧ checking.w.state = .ackCheck) ∧ ((writing 0 0).w.state = .shift ∧ (writing 0 0).w.bits = 0)
      ∧ ((reading .sendAck 0 0 false).HostMay ∧ (reading .sendAck 0 0 false).w.state = .idle
        ∧ (reading .sendAck 0 0 false).r.state = .sendAck)
      ∧ ((reading .sendNack 0 0 true).HostMay ∧ (reading .sendNack 0 0 true).r.state = .sendNack) := by decide

theorem witness_MisplacedPatternsFault :
    (active.HostMay ∧ active.EngineIdle)
      ∧ ((writing 0xEE 8).HostMay ∧ ¬ (writing 0xEE 8).EngineIdle ∧ (writing 0xEE 8).r.state ≠ .priming
        ∧ (writing 0xEE 8).w.state ≠ .ackCheck
        ∧ ¬ ((writing 0xEE 8).w.state = .shift ∧ (writing 0xEE 8).w.bits = 0)
        ∧ (writing 0xEE 8).r.state ≠ .sendAck ∧ (writing 0xEE 8).r.state ≠ .sendNack) := by decide

theorem witness_SensorRegistersCanonical : Memory.wf sensor.regs = true := by decide

end Sys2Proof.Tests
end

/-! PROOFS. What an instruction can do, said once for all instructions. -/
section
namespace Sys2Proof.Machine

/-! ### Every instruction is an invocation of a body -/

/-- The body an instruction runs where no mark is recorded; `exec_eq_invoke` ties it to `exec`. -/
def execBody (i : Instr) (s : State) : Except Fault State :=
  match i with
  | .beginBus => do let t ← beginLines s; pure (t.returning .nothing)
  | .start => do hostGuard s; let t ← startCondition s; pure (t.returning .nothing)
  | .stop => do hostGuard s; let t ← stopCondition s; pure (t.returning .nothing)
  | .wload byte succ err => do hostGuard s; let t ← wload byte succ err s; pure (t.returning .nothing)
  | .wstep => do hostGuard s; let p ← wstep s; pure (p.1.returning (.wstep p.2))
  | .rload sendNack succ => do hostGuard s; let t ← rload sendNack succ s; pure (t.returning .nothing)
  | .rstep => do hostGuard s; let p ← rstep s; pure (p.1.returning (.rstep p.2))
  | .astart => do let t ← astart s; pure (t.returning .nothing)
  | .seqstep => do let p ← seqstep s; pure (p.1.returning (.seqstep p.2))
  | .compensate => do let t ← compensate s; pure (t.returning (.result t.result))
  | .acquire => do let t ← acquireOp s; pure (t.returning (.result t.result))
  | .addrW a => sendByte (addressByte a false) .registerSelect s
  | .addrR a => sendByte (addressByte a true) .read s
  | .regSelect r => sendByte r (registerContinuation s.cfg r) s
  | .cmdTemp => sendByte 0x2E .stop s
  | .cmdPres o => sendByte (presByte o) .stop s
  | .data d => receiveByte d s
  | .ack => ackSlot false s
  | .nack => ackSlot true s

theorem exec_eq_invoke (i : Instr) (s : State) : exec i s = invoke s (execBody i s) := by
  cases i <;> rfl

/-- The procedures an instruction can run from `s`, on the states its guard admits, each with the state it leaves before the
return value is stored. A driven acknowledge slot is the case `rstep`. -/
inductive Runs (s : State) : State → Prop
  | beginLines {u} (h : beginLines s = .ok u) : Runs s u
  | start {u} (hb : s.begun = true) (hr : s.step.resting = true) (h : startCondition s = .ok u) : Runs s u
  | stop {u} (hb : s.begun = true) (hr : s.step.resting = true) (h : stopCondition s = .ok u) : Runs s u
  | wload {u byte succ err} (hb : s.begun = true) (hr : s.step.resting = true) (h : wload byte succ err s = .ok u) :
      Runs s u
  | wstep {u r} (hb : s.begun = true) (hr : s.step.resting = true) (h : wstep s = .ok (u, r)) : Runs s u
  | rload {u nack succ} (hb : s.begun = true) (hr : s.step.resting = true) (h : rload nack succ s = .ok u) : Runs s u
  | rstep {u r} (hb : s.begun = true) (hr : s.step.resting = true) (h : rstep s = .ok (u, r)) : Runs s u
  | astart {u} (h : astart s = .ok u) : Runs s u
  | seqstep {u r} (h : seqstep s = .ok (u, r)) : Runs s u
  | compensate {u} (h : compensate s = .ok u) : Runs s u
  | acquire {u} (h : acquireOp s = .ok u) : Runs s u
  | sentByte {u byte succ r} (hb : s.begun = true) (hr : s.step.resting = true) (he : s.EngineIdle)
      (h : wsteps 8 { s with w := ⟨.shift, byte, 8, succ, .stopFail⟩ } = .ok (u, r)) : Runs s u
  | receivedByte {u d r} (hb : s.begun = true) (hr : s.step.resting = true) (hp : s.r.state = .priming)
      (h : rsteps 9 (s.answerNext (wireBits d)) = .ok (u, r)) : Runs s u
  | sampledSlot {u v r} (hb : s.begun = true) (hr : s.step.resting = true)
      (hw : s.w.state = .ackCheck ∨ (s.w.state = .shift ∧ s.w.bits = 0))
      (h : Machine.wstep (s.answerNext [v]) = .ok (u, r)) : Runs s u

/-- A body that ends by storing a return value answers what the rest of it leaves, with that value. -/
theorem bind_returning_ok_iff {α : Type} {x : Except Fault α} {f : α → State} {v : α → Ret} {t : State} :
    (x >>= fun a => pure ((f a).returning (v a))) = .ok t ↔ ∃ a, x = .ok a ∧ t = (f a).returning (v a) := by
  rw [except_bind_ok_iff]
  simp only [pure, Except.pure, Except.ok.injEq, eq_comm]

/-- The same behind the host guard (R131). -/
theorem guard_bind_returning_ok_iff {α : Type} {s t : State} {x : Except Fault α} {f : α → State} {v : α → Ret} :
    (hostGuard s >>= fun _ => x >>= fun a => pure ((f a).returning (v a))) = .ok t ↔
      s.begun = true ∧ s.step.resting = true ∧ ∃ a, x = .ok a ∧ t = (f a).returning (v a) := by
  rw [except_bind_ok_iff]
  simp only [hostGuard_ok_iff, bind_returning_ok_iff, exists_const, and_assoc]

theorem runs_of_sendByte {byte : Byte} {succ : Phase} {s t : State} (h : sendByte byte succ s = .ok t) :
    ∃ u v, Runs s u ∧ t = u.returning v := by
  obtain ⟨hb, hr, he, u, r, hu, rfl⟩ := (sendByte_ok_iff _ _ _ _).1 h
  exact ⟨u, _, .sentByte hb hr he hu, rfl⟩

theorem runs_of_receiveByte {d : Byte} {s t : State} (h : receiveByte d s = .ok t) :
    ∃ u v, Runs s u ∧ t = u.returning v := by
  obtain ⟨hb, hr, hp, u, r, hu, rfl⟩ := receiveByte_cases h
  exact ⟨u, _, .receivedByte hb hr hp hu, rfl⟩

theorem runs_of_ackSlot {b : Bit} {s t : State} (h : ackSlot b s = .ok t) :
    ∃ u v, Runs s u ∧ t = u.returning v := by
  obtain ⟨hb, hr, ⟨u, r, hw, hu, rfl⟩ | ⟨u, r, _, hu, rfl⟩⟩ := ackSlot_cases h
  · exact ⟨u, _, .sampledSlot hb hr hw hu, rfl⟩
  · exact ⟨u, _, .rstep hb hr hu, rfl⟩

/-- Every body that answers has run one of the procedures and stored its return value. -/
theorem execBody_cases {i : Instr} {s t : State} (h : execBody i s = .ok t) :
    ∃ u v, Runs s u ∧ t = u.returning v := by
  cases i with
  | beginBus =>
    obtain ⟨u, hu, rfl⟩ := bind_returning_ok_iff.1 h
    exact ⟨u, _, .beginLines hu, rfl⟩
  | start =>
    obtain ⟨hb, hr, u, hu, rfl⟩ := guard_bind_returning_ok_iff.1 h
    exact ⟨u, _, .start hb hr hu, rfl⟩
  | stop =>
    obtain ⟨hb, hr, u, hu, rfl⟩ := guard_bind_returning_ok_iff.1 h
    exact ⟨u, _, .stop hb hr hu, rfl⟩
  | wload byte succ err =>
    obtain ⟨hb, hr, u, hu, rfl⟩ := guard_bind_returning_ok_iff.1 h
    exact ⟨u, _, .wload hb hr hu, rfl⟩
  | wstep =>
    obtain ⟨hb, hr, ⟨u, r⟩, hu, rfl⟩ := guard_bind_returning_ok_iff.1 h
    exact ⟨u, _, .wstep hb hr hu, rfl⟩
  | rload nack succ =>
    obtain ⟨hb, hr, u, hu, rfl⟩ := guard_bind_returning_ok_iff.1 h
    exact ⟨u, _, .rload hb hr hu, rfl⟩
  | rstep =>
    obtain ⟨hb, hr, ⟨u, r⟩, hu, rfl⟩ := guard_bind_returning_ok_iff.1 h
    exact ⟨u, _, .rstep hb hr hu, rfl⟩
  | astart =>
    obtain ⟨u, hu, rfl⟩ := bind_returning_ok_iff.1 h
    exact ⟨u, _, .astart hu, rfl⟩
  | seqstep =>
    obtain ⟨⟨u, r⟩, hu, rfl⟩ := bind_returning_ok_iff.1 h
    exact ⟨u, _, .seqstep hu, rfl⟩
  | compensate =>
    obtain ⟨u, hu, rfl⟩ := bind_returning_ok_iff.1 h
    exact ⟨u, _, .compensate hu, rfl⟩
  | acquire =>
    obtain ⟨u, hu, rfl⟩ := bind_returning_ok_iff.1 h
    exact ⟨u, _, .acquire hu, rfl⟩
  | addrW | addrR | regSelect | cmdTemp | cmdPres => exact runs_of_sendByte h
  | data => exact runs_of_receiveByte h
  | ack | nack => exact runs_of_ackSlot h

/-- Everything an instruction can do: nothing in a marked state, the mark of a fault, or a procedure and its return value. -/
theorem exec_cases {i : Instr} {s t : State} (h : exec i s = .next t) :
    (¬ s.Clear ∧ t = s) ∨ (s.Clear ∧ ∃ f, execBody i s = .error f ∧ t = s.raise f)
      ∨ (s.Clear ∧ ∃ u v, Runs s u ∧ t = u.returning v) := by
  rw [exec_eq_invoke] at h
  rcases invoke_cases h with ⟨hc, ht⟩ | ⟨hc, hb⟩ | ⟨hc, hf⟩
  · exact .inl ⟨hc, ht⟩
  · exact .inr (.inr ⟨hc, execBody_cases hb⟩)
  · exact .inr (.inl ⟨hc, hf⟩)

end Sys2Proof.Machine
end

/-! PROOFS. The configuration is written by no operation (R8). -/
section
namespace Sys2Proof.Machine

@[simp] theorem State.emitAll_cfg (s : State) (es : List BusEvent) : (s.emitAll es).cfg = s.cfg := by
  rw [State.emitAll_eq]

theorem beginLines_cfg {s t : State} (h : beginLines s = .ok t) : t.cfg = s.cfg := by
  unfold beginLines at h
  split at h
  · cases h
  · split at h
    · cases h
    · cases h
      simp

/-! ### The byte sub-machines -/

@[simp] theorem ackCheck_cfg (s : State) : (ackCheck s).1.cfg = s.cfg := by rw [ackCheck_eq]

@[simp] theorem writeBit_cfg (s : State) : (writeBit s).cfg = s.cfg := by rw [writeBit_eq]

@[simp] theorem readPrime_cfg (s : State) : (readPrime s).cfg = s.cfg := by rw [readPrime_eq]

@[simp] theorem readBit_cfg (s : State) : (readBit s).cfg = s.cfg := by rw [readBit_eq]

@[simp] theorem readSendAck_cfg (s : State) : (readSendAck s).cfg = s.cfg := by rw [readSendAck_eq]

@[simp] theorem readSendNack_cfg (s : State) : (readSendNack s).cfg = s.cfg := by rw [readSendNack_eq]

theorem wstep_cfg {s t : State} {r : WReturn} (h : wstep s = .ok (t, r)) : t.cfg = s.cfg := by
  rcases wstep_cases h with ⟨_, _, rfl, _⟩ | ⟨_, ha⟩
  · exact writeBit_cfg s
  · rw [← ackCheck_cfg s, ← ha]

theorem rstep_cfg {s t : State} {r : RReturn} (h : rstep s = .ok (t, r)) : t.cfg = s.cfg := by
  rcases rstep_cases h with ⟨_, rfl, _⟩ | ⟨_, rfl, _⟩ | ⟨_, rfl, _⟩ | ⟨_, rfl, _⟩ <;> simp

theorem wsteps_cfg {n : Nat} {s t : State} {r : WReturn} (h : wsteps n s = .ok (t, r)) : t.cfg = s.cfg := by
  induction n generalizing s with
  | zero => cases h; rfl
  | succ n ih =>
    obtain ⟨u, q, hu, h⟩ := (wsteps_succ_ok_iff _ _ _ _).1 h
    exact (ih h).trans (wstep_cfg hu)

theorem rsteps_cfg {n : Nat} {s t : State} {r : RReturn} (h : rsteps n s = .ok (t, r)) : t.cfg = s.cfg := by
  induction n generalizing s with
  | zero => cases h; rfl
  | succ n ih =>
    obtain ⟨u, q, hu, h⟩ := (rsteps_succ_ok_iff _ _ _ _).1 h
    exact (ih h).trans (rstep_cfg hu)

/-! ### The Sequencer, the calculator and ACQUIRE -/

theorem writePhase_cfg {byte : Byte} {succ : Phase} {s t : State} (h : writePhase byte succ s = .ok t) :
    t.cfg = s.cfg := by
  rcases writePhase_cases h with ⟨_, rfl⟩ | ⟨_, _, rfl⟩ | ⟨_, _, rfl⟩ | ⟨_, _, rfl⟩ <;> simp

theorem storeByte_cfg {s t : State} (h : storeByte s = .ok t) : t.cfg = s.cfg := by
  obtain ⟨b, _, rfl⟩ := storeByte_cases h
  rfl

theorem phaseRead_cfg {row : StepRow} {s t : State} (h : phaseRead row s = .ok t) : t.cfg = s.cfg := by
  rcases phaseRead_cases h with ⟨_, rfl⟩ | ⟨_, rfl⟩ | ⟨_, rfl⟩ | ⟨_, hs⟩ | ⟨_, hs⟩
  · simp
  · simp
  · simp
  · simpa using storeByte_cfg hs
  · simpa using storeByte_cfg hs

theorem commit_cfg {row : StepRow} {s t : State} (h : commit row s = .ok t) : t.cfg = s.cfg := by
  rcases commit_cases h with ⟨_, rfl⟩ | ⟨_, _, _, _, _, rfl⟩ | ⟨_, _, _, _, _, _, _, _, rfl⟩ |
    ⟨_, _, _, _, _, _, _, rfl⟩ | ⟨_, _, _, _, _, _, _, _, _, rfl⟩ <;> rfl

theorem phaseStop_cfg {row : StepRow} {s t : State} (h : phaseStop row s = .ok t) : t.cfg = s.cfg := by
  obtain ⟨_, u, nxt, hu, _, rfl⟩ := phaseStop_cases h
  exact (commit_cfg hu :)

theorem waitStep_cfg {sleep : BusEvent} {s t : State} (h : waitStep sleep s = .ok t) : t.cfg = s.cfg := by
  obtain ⟨nxt, _, rfl⟩ := waitStep_cases h
  rfl

theorem startCondition_cfg {s t : State} (h : startCondition s = .ok t) : t.cfg = s.cfg := by
  obtain ⟨_, rfl⟩ := (startCondition_ok_iff _ _).1 h
  rfl

theorem stopCondition_cfg {s t : State} (h : stopCondition s = .ok t) : t.cfg = s.cfg := by
  obtain ⟨_, rfl⟩ := (stopCondition_ok_iff _ _).1 h
  rfl

theorem seqDispatch_cfg {row : StepRow} {s t : State} (h : seqDispatch row s = .ok t) : t.cfg = s.cfg := by
  rcases seqDispatch_cases h with ⟨_, _, hw⟩ | ⟨_, ⟨_, hp⟩ | ⟨_, hp⟩ | ⟨_, _, _, _, _, hp⟩ | ⟨_, _, _, _, hp⟩ |
    ⟨_, _, _, _, hp⟩ | ⟨_, hp⟩ | ⟨_, hp⟩ | ⟨_, hp⟩ | ⟨_, hp⟩ | ⟨_, hp⟩⟩
  · exact waitStep_cfg hw
  · rw [((phaseStart_ok_iff _ _).1 hp).2]
  · exact writePhase_cfg hp
  · exact writePhase_cfg hp
  · exact writePhase_cfg hp
  · exact writePhase_cfg hp
  · rw [((phaseRestart_ok_iff _ _).1 hp).2]
  · exact writePhase_cfg hp
  · exact phaseRead_cfg hp
  · exact phaseStop_cfg hp
  · rw [((phaseStopFail_ok_iff _ _).1 hp).2]

theorem seqstep_cfg {s t : State} {r : SeqReturn} (h : seqstep s = .ok (t, r)) : t.cfg = s.cfg := by
  obtain ⟨_, row, _, _, hd, _⟩ := (seqstep_ok_iff _ _ _).1 h
  exact seqDispatch_cfg hd

theorem compensate_cfg {s t : State} (h : compensate s = .ok t) : t.cfg = s.cfg := by
  obtain ⟨_, _, i, _, rfl⟩ := (compensate_ok_iff _ _).1 h
  rfl

theorem astart_cfg {s t : State} (h : astart s = .ok t) : t.cfg = s.cfg := by
  obtain ⟨_, _, _, _, rfl⟩ := (astart_ok_iff _ _).1 h
  rfl

theorem acquireLoop_cfg {n : Nat} {s t : State} (h : acquireLoop n s = .ok t) : t.cfg = s.cfg := by
  induction n generalizing s with
  | zero => cases h; rfl
  | succ n ih =>
    obtain ⟨u, r, hu, h⟩ := (acquireLoop_succ_ok_iff _ _ _).1 h
    split at h
    · exact (ih h).trans (seqstep_cfg hu)
    · exact h ▸ seqstep_cfg hu

theorem acquireOp_cfg {s t : State} (h : acquireOp s = .ok t) : t.cfg = s.cfg := by
  obtain ⟨u, v, hu, hv, h⟩ := (acquireOp_ok_iff _ _).1 h
  have hvs : v.cfg = s.cfg := (acquireLoop_cfg hv).trans (astart_cfg hu)
  split at h
  · rw [h, State.setBusError_cfg, hvs]
  · exact (compensate_cfg h).trans hvs

/-! ### Instructions and steps -/

theorem Runs.cfg_eq {s u : State} (h : Runs s u) : u.cfg = s.cfg := by
  cases h with
  | beginLines h => exact beginLines_cfg h
  | start _ _ h => exact startCondition_cfg h
  | stop _ _ h => exact stopCondition_cfg h
  | wload _ _ h => rw [((wload_ok_iff _ _ _ _ _).1 h).2]
  | wstep _ _ h => exact wstep_cfg h
  | rload _ _ h => rw [((rload_ok_iff _ _ _ _).1 h).2]
  | rstep _ _ h => exact rstep_cfg h
  | astart h => exact astart_cfg h
  | seqstep h => exact seqstep_cfg h
  | compensate h => exact compensate_cfg h
  | acquire h => exact acquireOp_cfg h
  | sentByte _ _ _ h => exact (wsteps_cfg h :)
  | receivedByte _ _ _ h => exact (rsteps_cfg h :)
  | sampledSlot _ _ _ h => exact (wstep_cfg h :)

theorem exec_cfg {i : Instr} {s t : State} (h : exec i s = .next t) : t.cfg = s.cfg := by
  rcases exec_cases h with ⟨_, rfl⟩ | ⟨_, f, _, rfl⟩ | ⟨_, u, v, hu, rfl⟩
  · rfl
  · rfl
  · exact hu.cfg_eq

/-- Settles O11: a step answers the old state, a refusal mark, or what an instruction leaves, and none of them writes CFG. -/
theorem configIsConstant : Obligations.ConfigIsConstant := by
  intro s t h
  rcases step_cases h with ⟨_, ho⟩ | ⟨_, rest, _, _, _, ho⟩ | ⟨_, rest, i, _, _, ho⟩
  · cases ho; rfl
  · cases ho; rfl
  · exact (exec_cfg ho.symm :)

end Sys2Proof.Machine
end

/-! PROOFS. The queue of invoked words, and construction. -/
section
namespace Sys2Proof.Machine

/-! ### The step's equations (R276) -/

theorem step_of_no_word {s : State} (h : s.pending = []) : step s = .next s := by
  simp only [step, State.fetch, h]

theorem step_of_decoded {s : State} {x : Word} {rest : List Word} {i : Instr} (h : s.pending = x :: rest)
    (hd : decode x = .ok i) : step s = exec i { s with pending := rest } := by
  simp only [step, State.fetch, h, hd]

theorem decode_of_decodeTableWord {nbits w : Nat} {i : Instr} (h : decodeTableWord nbits w = some i) :
    decode (tableWord nbits w) = .ok i := by
  unfold decodeTableWord at h
  cases hd : decode (tableWord nbits w) with
  | ok j => simpa [hd] using h
  | error e => simp [hd] at h

/-- Settles O6: a word placed by `withFetchWord` is the oldest of the queue, and the state without it is the old one. -/
theorem stepRunsDecoded : Obligations.StepRunsDecoded := by
  refine ⟨fun s x rest i hp hd => step_of_decoded hp hd, fun s hp => step_of_no_word hp, fun s nbits w i h => ?_⟩
  have hp : (s.withFetchWord nbits w).pending = tableWord nbits w :: s.pending := rfl
  exact step_of_decoded hp (decode_of_decodeTableWord h)

/-! ### Construction (R8) -/

theorem getLsbD_zero_eq_false_iff (b : Byte) : b.getLsbD 0 = false ↔ b.toNat % 2 = 0 := by
  simp [BitVec.getLsbD, Nat.testBit_zero]

theorem configOk_iff (c : Cfg) :
    configOk c = true ↔ c.regCal0.toNat % 2 = 0 ∧ c.regCal0.toNat + 21 ≤ 0xFF ∧ c.regOut.toNat + 2 ≤ 0xFF
      ∧ c.sdaLine ≠ c.sclLine ∧ 0 < c.tHalf ∧ c.oss = 0 ∧ c.cacheCal = false := by
  simp only [configOk, Bool.and_eq_true, Bool.not_eq_true', decide_eq_true_eq, getLsbD_zero_eq_false_iff, and_assoc]

theorem construct_of_configOk {c : Cfg} (h : configOk c = true) : State.construct c = .next (State.resetWith c) :=
  if_pos h

theorem construct_of_not_configOk {c : Cfg} (h : ¬ configOk c = true) : State.construct c = .fault .badConfig :=
  if_neg h

/-- Settles O19: `configOk` decides exactly the constraints of R8. -/
theorem constructionChecksConfig : Obligations.ConstructionChecksConfig := fun c =>
  ⟨fun hl => construct_of_configOk ((configOk_iff c).2 hl),
    fun hl => construct_of_not_configOk fun hc => hl ((configOk_iff c).1 hc)⟩

end Sys2Proof.Machine
end

/-! PROOFS. The elementary moves every instruction is made of. -/
section
namespace Sys2Proof.Machine

open Relation (ReflTransGen)

/-! ### The moves -/

/-- What the byte sub-machines and the line drivers can do to the state at once. -/
inductive EngineMove (s : State) : State → Prop
  | wave (es : List BusEvent) :
      EngineMove s { s with lines := es.foldl Lines.after s.lines, trace := s.trace ++ es }
  | wload {byte succ err} (he : s.EngineIdle) : EngineMove s { s with w := ⟨.shift, byte, 8, succ, err⟩ }
  | writeBit (hs : s.w.state = .shift) (hn : s.w.bits ≠ 0) : EngineMove s (writeBit s)
  | ackCheck (hs : s.w.state = .ackCheck ∨ (s.w.state = .shift ∧ s.w.bits = 0)) : EngineMove s (ackCheck s).1
  | rload {nack succ} (he : s.EngineIdle) : EngineMove s { s with r := ⟨.priming, 0, 0, nack, succ⟩ }
  | readPrime (hs : s.r.state = .priming) : EngineMove s (readPrime s)
  | readBit (hs : s.r.state = .reading) : EngineMove s (readBit s)
  | readSendAck (hs : s.r.state = .sendAck) : EngineMove s (readSendAck s)
  | readSendNack (hs : s.r.state = .sendNack) : EngineMove s (readSendNack s)

/-- What a SEQSTEP is made of: the engine's moves, and writes to the Sequencer's own fields. -/
inductive SeqMove (s : State) : State → Prop
  | engine {t} (h : EngineMove s t) : SeqMove s t
  | control {t} (h : t = { s with
      step := t.step, phase := t.phase, idx := t.idx, buf := t.buf, devId := t.devId, cal := t.cal, ut := t.ut
      up := t.up, failStep := t.failStep, failPhase := t.failPhase, errCode := t.errCode }) : SeqMove s t

/-- What any instruction is made of: a SEQSTEP's moves, and writes to `begun`, `result` and the environment. -/
inductive Move (s : State) : State → Prop
  | seq {t} (h : SeqMove s t) : Move s t
  | host {t} (h : t = { s with begun := t.begun, result := t.result, env := t.env }) : Move s t

/-- What every move keeps, a run of moves keeps. -/
theorem moves_keep {R : State → State → Prop} {P : State → Prop} (hR : ∀ {s t}, P s → R s t → P t) {s t : State}
    (hs : P s) (h : ReflTransGen R s t) : P t := by
  induction h with
  | refl => exact hs
  | tail _ ht ih => exact hR ih ht

theorem EngineMove.moves {s t : State} (h : EngineMove s t) : ReflTransGen Move s t := .single (.seq (.engine h))

theorem engineMoves_seqMoves {s t : State} (h : ReflTransGen EngineMove s t) : ReflTransGen SeqMove s t :=
  ReflTransGen.mono (fun _ _ => SeqMove.engine) _ _ h

theorem seqMoves_moves {s t : State} (h : ReflTransGen SeqMove s t) : ReflTransGen Move s t :=
  ReflTransGen.mono (fun _ _ => Move.seq) _ _ h

theorem engineMoves_moves {s t : State} (h : ReflTransGen EngineMove s t) : ReflTransGen Move s t :=
  seqMoves_moves (engineMoves_seqMoves h)

/-! ### The engine's procedures -/

theorem startCondition_engineMove {s t : State} (h : startCondition s = .ok t) : EngineMove s t := by
  obtain ⟨_, rfl⟩ := (startCondition_ok_iff _ _).1 h
  exact .wave startWave

theorem stopCondition_engineMove {s t : State} (h : stopCondition s = .ok t) : EngineMove s t := by
  obtain ⟨_, rfl⟩ := (stopCondition_ok_iff _ _).1 h
  exact .wave stopWave

theorem wload_engineMove {byte : Byte} {succ err : Phase} {s t : State} (h : wload byte succ err s = .ok t) :
    EngineMove s t := by
  obtain ⟨he, rfl⟩ := (wload_ok_iff _ _ _ _ _).1 h
  exact .wload he

theorem rload_engineMove {nack : Bool} {succ : Phase} {s t : State} (h : rload nack succ s = .ok t) :
    EngineMove s t := by
  obtain ⟨he, rfl⟩ := (rload_ok_iff _ _ _ _).1 h
  exact .rload he

theorem wstep_engineMove {s t : State} {r : WReturn} (h : wstep s = .ok (t, r)) : EngineMove s t := by
  rcases wstep_cases h with ⟨hs, hn, rfl, _⟩ | ⟨hs, ha⟩
  · exact .writeBit hs hn
  · rw [show t = (ackCheck s).1 from congrArg Prod.fst ha]
    exact .ackCheck hs

theorem rstep_engineMove {s t : State} {r : RReturn} (h : rstep s = .ok (t, r)) : EngineMove s t := by
  rcases rstep_cases h with ⟨hs, rfl, _⟩ | ⟨hs, rfl, _⟩ | ⟨hs, rfl, _⟩ | ⟨hs, rfl, _⟩
  · exact .readPrime hs
  · exact .readBit hs
  · exact .readSendAck hs
  · exact .readSendNack hs

theorem wsteps_engineMoves {n : Nat} {s t : State} {r : WReturn} (h : wsteps n s = .ok (t, r)) :
    ReflTransGen EngineMove s t := by
  induction n generalizing s with
  | zero => cases h; exact .refl
  | succ n ih =>
    obtain ⟨u, q, hu, h⟩ := (wsteps_succ_ok_iff _ _ _ _).1 h
    exact .head (wstep_engineMove hu) (ih h)

theorem rsteps_engineMoves {n : Nat} {s t : State} {r : RReturn} (h : rsteps n s = .ok (t, r)) :
    ReflTransGen EngineMove s t := by
  induction n generalizing s with
  | zero => cases h; exact .refl
  | succ n ih =>
    obtain ⟨u, q, hu, h⟩ := (rsteps_succ_ok_iff _ _ _ _).1 h
    exact .head (rstep_engineMove hu) (ih h)

/-! ### The Sequencer's procedures -/

theorem writePhase_seqMoves {byte : Byte} {succ : Phase} {s t : State} (h : writePhase byte succ s = .ok t) :
    ReflTransGen SeqMove s t := by
  rcases writePhase_cases h with ⟨he, rfl⟩ | ⟨hs, hn, rfl⟩ | ⟨hs, _, rfl⟩ | ⟨hs, _, rfl⟩
  · exact .head (.engine (.wload he)) (.single (.engine (.writeBit rfl (show (8 : Fin 9) ≠ 0 by decide))))
  · exact .single (.engine (.writeBit hs hn))
  · exact .single (.engine (.ackCheck hs))
  · exact .head (.engine (.ackCheck hs)) (.single (.control rfl))

theorem storeByte_seqMove {s t : State} (h : storeByte s = .ok t) : SeqMove s t := by
  obtain ⟨b, _, rfl⟩ := storeByte_cases h
  exact .control rfl

theorem phaseRead_seqMoves {row : StepRow} {s t : State} (h : phaseRead row s = .ok t) :
    ReflTransGen SeqMove s t := by
  rcases phaseRead_cases h with ⟨he, rfl⟩ | ⟨hs, rfl⟩ | ⟨hs, rfl⟩ | ⟨hs, hb⟩ | ⟨hs, hb⟩
  · exact .head (.engine (.rload he)) (.single (.engine (.readPrime rfl)))
  · exact .single (.engine (.readPrime hs))
  · exact .single (.engine (.readBit hs))
  · exact .head (.engine (.readSendAck hs)) (.single (storeByte_seqMove hb))
  · exact .head (.engine (.readSendNack hs)) (.single (storeByte_seqMove hb))

theorem commit_seqMove {row : StepRow} {s t : State} (h : commit row s = .ok t) : SeqMove s t := by
  rcases commit_cases h with ⟨_, rfl⟩ | ⟨_, _, _, _, _, rfl⟩ | ⟨_, _, _, _, _, _, _, _, rfl⟩ |
    ⟨_, _, _, _, _, _, _, rfl⟩ | ⟨_, _, _, _, _, _, _, _, _, rfl⟩ <;> exact .control rfl

theorem phaseStop_seqMoves {row : StepRow} {s t : State} (h : phaseStop row s = .ok t) :
    ReflTransGen SeqMove s t := by
  obtain ⟨_, u, nxt, hu, _, rfl⟩ := phaseStop_cases h
  exact .head (.engine (.wave stopWave)) (.head (commit_seqMove hu) (.single (.control rfl)))

theorem waitStep_seqMoves {sleep : BusEvent} {s t : State} (h : waitStep sleep s = .ok t) :
    ReflTransGen SeqMove s t := by
  obtain ⟨nxt, _, rfl⟩ := waitStep_cases h
  exact .head (.engine (.wave [sleep])) (.single (.control rfl))

theorem seqDispatch_seqMoves {row : StepRow} {s t : State} (h : seqDispatch row s = .ok t) :
    ReflTransGen SeqMove s t := by
  rcases seqDispatch_cases h with ⟨_, _, hw⟩ | ⟨_, ⟨_, hp⟩ | ⟨_, hp⟩ | ⟨_, _, _, _, _, hp⟩ | ⟨_, _, _, _, hp⟩ |
    ⟨_, _, _, _, hp⟩ | ⟨_, hp⟩ | ⟨_, hp⟩ | ⟨_, hp⟩ | ⟨_, hp⟩ | ⟨_, hp⟩⟩
  · exact waitStep_seqMoves hw
  · obtain ⟨_, rfl⟩ := (phaseStart_ok_iff _ _).1 hp
    exact .head (.engine (.wave startWave)) (.single (.control rfl))
  · exact writePhase_seqMoves hp
  · exact writePhase_seqMoves hp
  · exact writePhase_seqMoves hp
  · exact writePhase_seqMoves hp
  · obtain ⟨_, rfl⟩ := (phaseRestart_ok_iff _ _).1 hp
    exact .head (.engine (.wave startWave)) (.single (.control rfl))
  · exact writePhase_seqMoves hp
  · exact phaseRead_seqMoves hp
  · exact phaseStop_seqMoves hp
  · obtain ⟨_, rfl⟩ := (phaseStopFail_ok_iff _ _).1 hp
    exact .head (.engine (.wave stopWave)) (.single (.control rfl))

theorem seqstep_seqMoves {s t : State} {r : SeqReturn} (h : seqstep s = .ok (t, r)) : ReflTransGen SeqMove s t := by
  obtain ⟨_, row, _, _, hd, _⟩ := (seqstep_ok_iff _ _ _).1 h
  exact seqDispatch_seqMoves hd

theorem acquireLoop_seqMoves {n : Nat} {s t : State} (h : acquireLoop n s = .ok t) : ReflTransGen SeqMove s t := by
  induction n generalizing s with
  | zero => cases h; exact .refl
  | succ n ih =>
    obtain ⟨u, r, hu, h⟩ := (acquireLoop_succ_ok_iff _ _ _).1 h
    split at h
    · exact (seqstep_seqMoves hu).trans (ih h)
    · exact h ▸ seqstep_seqMoves hu

/-! ### Instructions -/

/-- BEGIN's body (R125). -/
theorem beginLines_ok_iff (s t : State) :
    beginLines s = .ok t ↔ s.step.resting = true ∧ s.EngineIdle ∧
      t = { s with lines := ⟨some true, some true⟩, trace := s.trace ++ beginWave, begun := true } := by
  rw [← State.engineIdle_iff]
  unfold beginLines
  cases s.step.resting <;> cases s.engineIdle <;> simp [State.emitAll_eq, Lines.after_beginWave, eq_comm]

theorem astart_moves {s t : State} (h : astart s = .ok t) : ReflTransGen Move s t := by
  obtain ⟨_, _, _, _, rfl⟩ := (astart_ok_iff _ _).1 h
  exact .head (b := { s with result := none }) (.host rfl) (.single (.seq (.control rfl)))

theorem compensate_moves {s t : State} (h : compensate s = .ok t) : ReflTransGen Move s t := by
  obtain ⟨_, _, i, _, rfl⟩ := (compensate_ok_iff _ _).1 h
  exact .head (b := { s with result := some _ }) (.host rfl) (.single (.seq (.control rfl)))

theorem acquireOp_moves {s t : State} (h : acquireOp s = .ok t) : ReflTransGen Move s t := by
  obtain ⟨u, v, hu, hv, h⟩ := (acquireOp_ok_iff _ _).1 h
  have hsv : ReflTransGen Move s v := (astart_moves hu).trans (seqMoves_moves (acquireLoop_seqMoves hv))
  split at h
  · exact hsv.tail (h ▸ .host rfl)
  · exact hsv.trans (compensate_moves h)

/-- Every procedure an instruction can run is made of moves. -/
theorem Runs.moves {s u : State} (h : Runs s u) : ReflTransGen Move s u := by
  cases h with
  | beginLines h =>
    obtain ⟨_, _, rfl⟩ := (beginLines_ok_iff _ _).1 h
    exact .head (.seq (.engine (.wave beginWave))) (.single (.host rfl))
  | start _ _ h => exact (startCondition_engineMove h).moves
  | stop _ _ h => exact (stopCondition_engineMove h).moves
  | wload _ _ h => exact (wload_engineMove h).moves
  | wstep _ _ h => exact (wstep_engineMove h).moves
  | rload _ _ h => exact (rload_engineMove h).moves
  | rstep _ _ h => exact (rstep_engineMove h).moves
  | astart h => exact astart_moves h
  | seqstep h => exact seqMoves_moves (seqstep_seqMoves h)
  | compensate h => exact compensate_moves h
  | acquire h => exact acquireOp_moves h
  | sentByte _ _ he h => exact (EngineMove.wload he).moves.trans (engineMoves_moves (wsteps_engineMoves h))
  | receivedByte _ _ _ h => exact .head (.host rfl) (engineMoves_moves (rsteps_engineMoves h))
  | sampledSlot _ _ _ h => exact .head (.host rfl) (wstep_engineMove h).moves

/-! ### Steps -/

/-- What every procedure keeps, a step keeps, where the queue, the marks and the return value do not matter. -/
theorem step_keeps {P : State → Prop}
    (hmarks : ∀ (s : State) (q : List Word) (f : Option Fault) (b : Bool) (v : Ret), P s →
      P { s with pending := q, fault := f, refused := b, ret := v })
    (hruns : ∀ {s u}, P s → Runs s u → P u) {s t : State} (hs : P s) (h : step s = .next t) : P t := by
  rcases step_cases h with ⟨_, ho⟩ | ⟨_, rest, _, _, _, ho⟩ | ⟨_, rest, i, _, _, ho⟩
  · cases ho; exact hs
  · cases ho; exact hmarks s rest s.fault true s.ret hs
  · have hq : P { s with pending := rest } := hmarks s rest s.fault s.refused s.ret hs
    rcases exec_cases ho.symm with ⟨_, rfl⟩ | ⟨_, f, _, rfl⟩ | ⟨_, u, v, hu, rfl⟩
    · exact hq
    · exact hmarks s rest (some f) s.refused s.ret hs
    · exact hmarks u u.pending u.fault u.refused v (hruns hq hu)

end Sys2Proof.Machine
end

/-! PROOFS. Every step appends the events it emits and sets the lines by them (R22, R43). -/
section
namespace Sys2Proof.Machine

/-- `t` is `s` after some more events: they are appended to the trace, and the lines are as they set them. -/
def Emits (s t : State) : Prop := ∃ es, t.trace = s.trace ++ es ∧ t.lines = es.foldl Lines.after s.lines

theorem Emits.refl (s : State) : Emits s s := ⟨[], by simp, rfl⟩

theorem Emits.trans {s t u : State} (h₁ : Emits s t) (h₂ : Emits t u) : Emits s u := by
  obtain ⟨es, ht, hl⟩ := h₁
  obtain ⟨fs, hu, hm⟩ := h₂
  exact ⟨es ++ fs, by rw [hu, ht, List.append_assoc], by rw [hm, hl, List.foldl_append]⟩

theorem emits_of_silent {s t : State} (ht : t.trace = s.trace) (hl : t.lines = s.lines) : Emits s t :=
  ⟨[], by rw [ht, List.append_nil], hl⟩

theorem EngineMove.emits {s t : State} (h : EngineMove s t) : Emits s t := by
  cases h with
  | wave es => exact ⟨es, rfl, rfl⟩
  | wload | rload => exact emits_of_silent rfl rfl
  | writeBit => rw [writeBit_eq]; exact ⟨_, rfl, rfl⟩
  | ackCheck => rw [ackCheck_eq]; exact ⟨_, rfl, rfl⟩
  | readPrime => rw [readPrime_eq]; exact ⟨_, rfl, rfl⟩
  | readBit => rw [readBit_eq]; exact ⟨_, rfl, rfl⟩
  | readSendAck => rw [readSendAck_eq]; exact ⟨_, rfl, rfl⟩
  | readSendNack => rw [readSendNack_eq]; exact ⟨_, rfl, rfl⟩

theorem Move.emits {s t : State} (h : Move s t) : Emits s t := by
  rcases h with (h | h) | h
  · exact h.emits
  · exact emits_of_silent (congrArg State.trace h :) (congrArg State.lines h :)
  · exact emits_of_silent (congrArg State.trace h :) (congrArg State.lines h :)

theorem Runs.emits {s u : State} (h : Runs s u) : Emits s u :=
  moves_keep (P := Emits s) (fun hs hm => hs.trans hm.emits) (.refl s) h.moves

theorem step_emits {s t : State} (h : step s = .next t) : Emits s t :=
  step_keeps (P := Emits s) (fun _ _ _ _ _ hs => hs) (fun hs hr => hs.trans hr.emits) (.refl s) h

/-- Settles O12: the events a step emits are what it adds to the trace. -/
theorem traceIsAppendOnly : Obligations.TraceIsAppendOnly := by
  refine ⟨rfl, fun s t h => ?_⟩
  obtain ⟨es, ht, _⟩ := step_emits h
  exact ⟨es, ht.symm⟩

/-- Settles O13: the events a step adds to the trace are those that set its lines. -/
theorem linesHoldLastEmitted : Obligations.LinesHoldLastEmitted := by
  intro s t hs h
  obtain ⟨es, ht, hl⟩ := step_emits h
  unfold LinesInv at hs ⊢
  rw [ht, List.foldl_append, ← hs, hl]

end Sys2Proof.Machine
end

/-! PROOFS. The byte sub-machines' counters, and that at most one of them is busy (R48.1 to R48.5). -/
section
namespace Sys2Proof.Machine

/-- The invariant speaks of the two sub-machine contexts alone. -/
theorem engineInv_congr {s t : State} (hw : t.w = s.w) (hr : t.r = s.r) (h : EngineInv s) : EngineInv t := by
  unfold EngineInv
  rw [hw, hr]
  exact h

/-- A write sub-machine that fits its counter, with the other idle. -/
theorem engineInv_of_read_idle {s : State} (hr : s.r.state = .idle)
    (hb : s.w.state = .shift → 1 ≤ s.w.bits.val ∧ s.w.bits.val ≤ 8) (ha : s.w.state = .ackCheck → s.w.bits = 0) :
    EngineInv s :=
  ⟨hb, ha, by simp [hr], by simp [hr], .inr hr⟩

/-- A read sub-machine that fits its counter, with the other idle. -/
theorem engineInv_of_write_idle {s : State} (hw : s.w.state = .idle)
    (hb : s.r.state = .reading → 1 ≤ s.r.bits.val ∧ s.r.bits.val ≤ 8)
    (ha : s.r.state = .sendAck ∨ s.r.state = .sendNack → s.r.bits = 0) : EngineInv s :=
  ⟨by simp [hw], by simp [hw], hb, ha, .inl hw⟩

theorem EngineInv.read_idle {s : State} (h : EngineInv s) (hw : s.w.state ≠ .idle) : s.r.state = .idle := by
  obtain ⟨_, _, _, _, hone⟩ := h
  exact hone.resolve_left hw

theorem EngineInv.write_idle {s : State} (h : EngineInv s) (hr : s.r.state ≠ .idle) : s.w.state = .idle := by
  obtain ⟨_, _, _, _, hone⟩ := h
  exact hone.resolve_right hr

/-- A counter that is not 0 is in 1 to 8. -/
theorem one_le_bits {n : Fin 9} (h : n ≠ 0) : 1 ≤ n.val ∧ n.val ≤ 8 :=
  ⟨Nat.one_le_iff_ne_zero.2 fun h0 => h (Fin.ext h0), by omega⟩

theorem slotState_ne_reading (nack : Bool) : slotState nack ≠ .reading := by cases nack <;> decide

theorem writeBit_engineInv {s : State} (h : EngineInv s) (hs : s.w.state = .shift) : EngineInv (writeBit s) := by
  have hr : s.r.state = .idle := h.read_idle (by simp [hs])
  rw [writeBit_eq]
  refine engineInv_of_read_idle hr (fun hb => ?_) (fun ha => ?_)
  · by_cases h0 : countDown s.w.bits = 0
    · simp [h0] at hb
    · exact one_le_bits h0
  · by_contra h0
    simp [h0] at ha

theorem readBit_engineInv {s : State} (h : EngineInv s) (hs : s.r.state = .reading) : EngineInv (readBit s) := by
  have hw : s.w.state = .idle := h.write_idle (by simp [hs])
  rw [readBit_eq]
  refine engineInv_of_write_idle hw (fun hb => ?_) (fun ha => ?_)
  · by_cases h0 : readCountAfter s = 0
    · simp [h0, slotState_ne_reading] at hb
    · exact one_le_bits h0
  · by_contra h0
    simp [h0] at ha

theorem EngineMove.engineInv {s t : State} (hs : EngineInv s) (h : EngineMove s t) : EngineInv t := by
  cases h with
  | wave => exact hs
  | wload he => exact engineInv_of_read_idle he.2 (fun _ => one_le_bits (n := 8) (by decide)) nofun
  | writeBit hw => exact writeBit_engineInv hs hw
  | ackCheck hw =>
    have hr : s.r.state = .idle := hs.read_idle (by rcases hw with hw | ⟨hw, _⟩ <;> simp [hw])
    rw [ackCheck_eq]
    exact engineInv_of_read_idle hr nofun nofun
  | rload he => exact engineInv_of_write_idle he.1 nofun nofun
  | readPrime hr =>
    have hw : s.w.state = .idle := hs.write_idle (by simp [hr])
    rw [readPrime_eq]
    exact engineInv_of_write_idle hw (fun _ => one_le_bits (n := 8) (by decide)) (by simp)
  | readBit hr => exact readBit_engineInv hs hr
  | readSendAck hr =>
    have hw : s.w.state = .idle := hs.write_idle (by simp [hr])
    rw [readSendAck_eq]
    exact engineInv_of_write_idle hw nofun (by simp)
  | readSendNack hr =>
    have hw : s.w.state = .idle := hs.write_idle (by simp [hr])
    rw [readSendNack_eq]
    exact engineInv_of_write_idle hw nofun (by simp)

theorem Move.engineInv {s t : State} (hs : EngineInv s) (h : Move s t) : EngineInv t := by
  rcases h with (h | h) | h
  · exact h.engineInv hs
  · exact engineInv_congr (congrArg State.w h :) (congrArg State.r h :) hs
  · exact engineInv_congr (congrArg State.w h :) (congrArg State.r h :) hs

theorem Runs.engineInv {s u : State} (hs : EngineInv s) (h : Runs s u) : EngineInv u :=
  moves_keep (P := EngineInv) Move.engineInv hs h.moves

/-- Settles O14: every move keeps the counters and leaves at most one sub-machine busy. -/
theorem engineInvariantKept : Obligations.EngineInvariantKept :=
  fun _ _ hs h => step_keeps (P := EngineInv) (fun _ _ _ _ _ hp => hp) Runs.engineInv hs h

end Sys2Proof.Machine
end

/-! PROOFS. What the finished steps of an acquisition have read (R68, R194). -/
section
namespace Sys2Proof.Machine

/-- The field a read step fills is populated. -/
def Target.populated (tg : Target) (s : State) : Bool :=
  match tg with
  | .devId => s.devId.isSome
  | .cal f => (s.cal.get f).isSome
  | .ut => s.ut.isSome
  | .up => s.up.isSome

/-- `PopulatedBefore` by the step table: the target of every read step of a lower rank is populated. -/
theorem populatedBefore_iff (c : Cfg) (n : Nat) (s : State) :
    PopulatedBefore n s ↔
      ∀ st reg k tg, stepRow c st = some (.read reg k tg) → st.rank < n → tg.populated s = true := by
  constructor
  · rintro ⟨hid, h1, h2, h3, h4, h5, h6, hb1, hb2, hmb, hmc, hmd, hut, hup⟩ st reg k tg hrow
    cases st <;> cases hrow <;> assumption
  · intro h
    exact ⟨h .readDeviceId _ _ _ rfl, h .readAC1 _ _ _ rfl, h .readAC2 _ _ _ rfl, h .readAC3 _ _ _ rfl,
      h .readAC4 _ _ _ rfl, h .readAC5 _ _ _ rfl, h .readAC6 _ _ _ rfl, h .readB1 _ _ _ rfl, h .readB2 _ _ _ rfl,
      h .readMB _ _ _ rfl, h .readMC _ _ _ rfl, h .readMD _ _ _ rfl, h .readUT _ _ _ rfl, h .readUP _ _ _ rfl⟩

theorem Calibration.get_set (c : Calibration) (f g : CalField) (v : BitVec 16) :
    (c.set f v).get g = if f = g then some v else c.get g := by
  cases f <;> cases g <;> rfl

theorem commit_populates {reg : Byte} {k : Nat} {tg : Target} {s u : State}
    (h : commit (.read reg k tg) s = .ok u) : tg.populated u = true := by
  rcases commit_cases h with ⟨hr, _⟩ | ⟨_, _, _, he, _, rfl⟩ | ⟨_, _, _, _, _, he, _, _, rfl⟩ |
    ⟨_, _, _, _, he, _, _, rfl⟩ | ⟨_, _, _, _, _, he, _, _, _, rfl⟩
  · cases hr
  · cases he; rfl
  · cases he; simp [Target.populated, Calibration.get_set]
  · cases he; rfl
  · cases he; rfl

theorem commit_keeps_populated {row : StepRow} {tg : Target} {s u : State} (h : commit row s = .ok u)
    (hs : tg.populated s = true) : tg.populated u = true := by
  rcases commit_cases h with ⟨_, rfl⟩ | ⟨_, _, _, _, _, rfl⟩ | ⟨_, _, f, _, _, _, _, _, rfl⟩ |
    ⟨_, _, _, _, _, _, _, rfl⟩ | ⟨_, _, _, _, _, _, _, _, _, rfl⟩
  · exact hs
  · cases tg with
    | devId => rfl
    | cal | ut | up => exact hs
  · cases tg with
    | cal g => by_cases hfg : f = g <;> simp_all [Target.populated, Calibration.get_set]
    | devId | ut | up => exact hs
  · cases tg with
    | ut => rfl
    | devId | cal | up => exact hs
  · cases tg with
    | up => rfl
    | devId | cal | ut => exact hs

/-- The steps in the order of their codes (R87). -/
def Step.inOrder : List Step :=
  [.idle, .readDeviceId, .readAC1, .readAC2, .readAC3, .readAC4, .readAC5, .readAC6, .readB1, .readB2, .readMB,
    .readMC, .readMD, .triggerTemp, .waitT1, .readUT, .triggerPressure, .waitT2, .readUP, .done, .failed]

theorem Step.inOrder_rank (st : Step) : Step.inOrder[st.rank]? = some st := by cases st <;> rfl

theorem Step.rank_injective {a b : Step} (h : a.rank = b.rank) : a = b := by
  have hab : some a = some b := by rw [← Step.inOrder_rank a, ← Step.inOrder_rank b, h]
  exact Option.some.inj hab

/-- The commit at the end of a step leaves everything read that the next step relies on. -/
theorem commit_populatedBefore {row : StepRow} {st nxt : Step} {c : Cfg} {s u : State}
    (hrow : stepRow c st = some row) (hn : st.next = some nxt) (h : commit row s = .ok u)
    (hp : PopulatedBefore st.rank s) : PopulatedBefore nxt.rank u := by
  rw [populatedBefore_iff c] at hp ⊢
  intro st' reg k tg hrow' hlt
  rw [next_rank hn] at hlt
  rcases Nat.lt_succ_iff_lt_or_eq.1 hlt with hlt | heq
  · exact commit_keeps_populated h (hp st' reg k tg hrow' hlt)
  · rw [Step.rank_injective heq, hrow] at hrow'
    cases hrow'
    exact commit_populates h

end Sys2Proof.Machine
end

/-! PROOFS. The legal states of an acquisition in flight (R196). -/
section
namespace Sys2Proof.Machine

/-! ### What the consistency check lets pass -/

/-- What the conditions of R196 say of a state that meets none of them. -/
structure Consistent (row : StepRow) (s : State) : Prop where
  active : row.isWait = false → s.phase ≠ .idle
  waiting : row.isWait = true → s.phase = .idle ∧ s.EngineIdle
  command : s.phase = .writeData → row.isWrite = true
  reads : s.phase = .restart ∨ s.phase = .addressR ∨ s.phase = .read → row.isRead = true
  conditions : s.phase = .start ∨ s.phase = .restart ∨ s.phase = .stop ∨ s.phase = .stopFail → s.EngineIdle
  sending : isWritePhase s.phase = true → s.r.state = .idle
  reading : s.phase = .read → s.w.state = .idle
  more : s.phase = .read → s.r.state = .idle → s.idx.val < row.count

theorem isWritePhase_iff (p : Phase) :
    isWritePhase p = true ↔ p = .addressW ∨ p = .registerSelect ∨ p = .writeData ∨ p = .addressR := by
  cases p <;> simp [isWritePhase]

theorem inconsistent_eq_false_iff (row : StepRow) (s : State) : inconsistent row s = false ↔ Consistent row s := by
  simp only [inconsistent, Bool.or_eq_false_iff, Bool.and_eq_false_imp, Bool.or_eq_true, Bool.not_eq_true', beq_iff_eq,
    bne_eq_false_iff_eq, beq_eq_false_iff_ne, Bool.not_eq_false', decide_eq_false_iff_not, not_le, s.engineIdle_iff,
    Bool.and_eq_true, and_imp, or_assoc]
  constructor
  · rintro ⟨⟨⟨⟨⟨⟨⟨hidle, hwait⟩, hcmd⟩, hreads⟩, hcond⟩, hsend⟩, hread⟩, hmore⟩
    exact ⟨hidle, hwait, hcmd, hreads, hcond, fun h => hsend ((isWritePhase_iff _).1 h), hread, hmore⟩
  · rintro ⟨hidle, hwait, hcmd, hreads, hcond, hsend, hread, hmore⟩
    exact ⟨⟨⟨⟨⟨⟨⟨hidle, hwait⟩, hcmd⟩, hreads⟩, hcond⟩, fun h => hsend ((isWritePhase_iff _).2 h)⟩, hread⟩, hmore⟩

/-- A step of kind read reads 1 to 3 bytes (R67). -/
theorem count_of_isRead {c : Cfg} {st : Step} {row : StepRow} (h : stepRow c st = some row)
    (hrd : row.isRead = true) : 1 ≤ row.count ∧ row.count ≤ 3 := by
  cases row with
  | read => exact count_of_read h
  | write | wait => cases hrd

end Sys2Proof.Machine
end

/-! PROOFS. Every SEQSTEP leaves an acquisition in flight in one of its legal states (R48, R68, R196). -/
section
namespace Sys2Proof.Machine

/-! ### When a state is a legal one -/

/-- The first `n` elements of the receive buffer hold a byte. -/
def RxBuffer.filled (b : RxBuffer) (n : Nat) : Prop :=
  (0 < n → b.b0.isSome) ∧ (1 < n → b.b1.isSome) ∧ (2 < n → b.b2.isSome)

theorem RxBuffer.filled_zero (b : RxBuffer) : b.filled 0 := by simp [RxBuffer.filled]

theorem RxBuffer.filled_set {b b' : RxBuffer} {n : Nat} {v : Byte} (hb : b.filled n) (h : b.set n v = some b') :
    b'.filled (n + 1) := by
  obtain ⟨h0, h1, h2⟩ := hb
  match n, h with
  | 0, h => cases h; exact ⟨fun _ => rfl, by omega, by omega⟩
  | 1, h => cases h; exact ⟨fun _ => h0 (by omega), fun _ => rfl, by omega⟩
  | 2, h => cases h; exact ⟨fun _ => h0 (by omega), fun _ => h1 (by omega), fun _ => rfl⟩

/-- In flight with no byte under way and none received. -/
theorem flightInv_of_no_byte {row : StepRow} {t : State} (hb : t.begun = true) (hc : Consistent row t)
    (hp : PopulatedBefore t.step.rank t) (he : t.EngineIdle) (hi : t.idx.val = 0)
    (hbus : t.phase = .idle ∨ t.phase = .start → t.BusIdle) (hstop : t.phase = .stop → row.count = 0)
    (hfail : t.phase = .stopFail → t.failStep = some t.step ∧ t.failPhase.any isWritePhase = true) :
    FlightInv row t := by
  obtain ⟨h0, h1, h2⟩ := t.buf.filled_zero
  exact ⟨hb, (inconsistent_eq_false_iff _ _).2 hc, hp, fun h => ⟨hbus h, hi⟩, fun _ => hi, by omega,
    fun h => hi.trans (hstop h).symm, hi ▸ h0, hi ▸ h1, hi ▸ h2, fun h => absurd he.1 h, fun h => absurd he.2 h, hfail⟩

/-- In flight in a phase that sends a byte. -/
theorem flightInv_of_sending {row : StepRow} {t : State} (hb : t.begun = true) (hc : Consistent row t)
    (hp : PopulatedBefore t.step.rank t) (hw : isWritePhase t.phase = true) (hi : t.idx.val = 0)
    (hctx : t.w.succ = writeContinuation row t.phase ∧ t.w.err = .stopFail) : FlightInv row t := by
  obtain ⟨h0, h1, h2⟩ := t.buf.filled_zero
  refine ⟨hb, (inconsistent_eq_false_iff _ _).2 hc, hp, ?_, fun _ => hi, by omega, ?_, hi ▸ h0, hi ▸ h1, hi ▸ h2,
    fun _ => hctx, fun h => absurd (hc.sending hw) h, ?_⟩
  · rintro (h | h) <;> simp [h, isWritePhase] at hw
  · intro h; simp [h, isWritePhase] at hw
  · intro h; simp [h, isWritePhase] at hw

/-- In flight in the phase READ. -/
theorem flightInv_of_reading {row : StepRow} {t : State} (hb : t.begun = true) (hc : Consistent row t)
    (hp : PopulatedBefore t.step.rank t) (hph : t.phase = .read) (hle : t.idx.val ≤ row.count)
    (hbuf : t.buf.filled t.idx.val)
    (hctx : t.r.state ≠ .idle → t.idx.val < row.count ∧ t.r.nack = decide (t.idx.val + 1 = row.count)
      ∧ t.r.succ = if t.idx.val + 1 = row.count then .stop else .read) : FlightInv row t := by
  obtain ⟨h0, h1, h2⟩ := hbuf
  exact ⟨hb, (inconsistent_eq_false_iff _ _).2 hc, hp, by simp [hph], by simp [hph, isWritePhase], hle, by simp [hph],
    h0, h1, h2, fun h => absurd (hc.reading hph) h, hctx, by simp [hph]⟩

/-- In flight in the phase STOP, with the bytes received. -/
theorem flightInv_of_stopping {row : StepRow} {t : State} (hb : t.begun = true) (hc : Consistent row t)
    (hp : PopulatedBefore t.step.rank t) (hph : t.phase = .stop) (hi : t.idx.val = row.count)
    (hbuf : t.buf.filled t.idx.val) : FlightInv row t := by
  obtain ⟨h0, h1, h2⟩ := hbuf
  have he : t.EngineIdle := hc.conditions (by simp [hph])
  exact ⟨hb, (inconsistent_eq_false_iff _ _).2 hc, hp, by simp [hph], by simp [hph, isWritePhase], hi.le, fun _ => hi,
    h0, h1, h2, fun h => absurd he.1 h, fun h => absurd he.2 h, by simp [hph]⟩

/-! ### The phases within a step -/

/-- With the engine idle, the check asks only that the phase fits the row. -/
theorem consistent_of_engineIdle {row : StepRow} {t : State} (he : t.EngineIdle) (hw : row.isWait = false)
    (hp : t.phase ≠ .idle) (hcmd : t.phase = .writeData → row.isWrite = true)
    (hrd : t.phase = .restart ∨ t.phase = .addressR ∨ t.phase = .read → row.isRead = true)
    (hm : t.phase = .read → t.idx.val < row.count) : Consistent row t where
  active _ := hp
  waiting h := by simp [hw] at h
  command := hcmd
  reads := hrd
  conditions _ := he
  sending _ := he.2
  reading _ := he.1
  more h _ := hm h

theorem isRead_of_not_write {row : StepRow} (hwait : row.isWait = false) (hwr : row.isWrite = false) :
    row.isRead = true := by
  cases row with
  | read => rfl
  | write => cases hwr
  | wait => cases hwait

/-- The continuation of a sent byte fits the row. -/
theorem consistent_continuation {row : StepRow} {c : Cfg} {st : Step} {s t : State} (hrow : stepRow c st = some row)
    (hwait : row.isWait = false) (hs : Consistent row s) (hw : isWritePhase s.phase = true) (he : t.EngineIdle)
    (hi : t.idx.val = 0) (ht : t.phase = writeContinuation row s.phase) : Consistent row t := by
  rcases (isWritePhase_iff _).1 hw with hp | hp | hp | hp
  · have ht : t.phase = .registerSelect := by rw [ht, hp]; rfl
    exact consistent_of_engineIdle he hwait (by simp [ht]) (by simp [ht]) (by simp [ht]) (by simp [ht])
  · cases hrw : row.isWrite with
    | true =>
      have ht : t.phase = .writeData := by rw [ht, hp]; simp [writeContinuation, hrw]
      exact consistent_of_engineIdle he hwait (by simp [ht]) (fun _ => hrw) (by simp [ht]) (by simp [ht])
    | false =>
      have ht : t.phase = .restart := by rw [ht, hp]; simp [writeContinuation, hrw]
      have hrd : row.isRead = true := isRead_of_not_write hwait hrw
      exact consistent_of_engineIdle he hwait (by simp [ht]) (by simp [ht]) (fun _ => hrd) (by simp [ht])
  · have ht : t.phase = .stop := by rw [ht, hp]; rfl
    exact consistent_of_engineIdle he hwait (by simp [ht]) (by simp [ht]) (by simp [ht]) (by simp [ht])
  · have ht : t.phase = .read := by rw [ht, hp]; rfl
    have hrd : row.isRead = true := hs.reads (.inr (.inl hp))
    have hmore : t.idx.val < row.count := hi ▸ (count_of_isRead hrow hrd).1
    exact consistent_of_engineIdle he hwait (by simp [ht]) (by simp [ht]) (fun _ => hrd) (fun _ => hmore)

/-- In a phase that sends a byte, the check looks at the phase and the read sub-machine alone. -/
theorem consistent_of_sending {row : StepRow} {s t : State} (hs : Consistent row s)
    (hw : isWritePhase s.phase = true) (hp : t.phase = s.phase) (hr : t.r = s.r) : Consistent row t where
  active h := hp ▸ hs.active h
  waiting h := by simp [(hs.waiting h).1, isWritePhase] at hw
  command h := hs.command (hp ▸ h)
  reads h := hs.reads (hp ▸ h)
  conditions h := by rw [hp] at h; rcases h with h | h | h | h <;> simp [h, isWritePhase] at hw
  sending _ := hr ▸ hs.sending hw
  reading h := by simp [← hp, h, isWritePhase] at hw
  more h := by simp [← hp, h, isWritePhase] at hw

theorem consistent_of_reading {row : StepRow} {t : State} (hp : t.phase = .read) (hrd : row.isRead = true)
    (hw : t.w.state = .idle) (hm : t.r.state = .idle → t.idx.val < row.count) : Consistent row t where
  active _ := by simp [hp]
  waiting h := by cases row <;> cases h; cases hrd
  command h := by simp [hp] at h
  reads _ := hrd
  conditions h := by simp [hp] at h
  sending h := by simp [hp, isWritePhase] at h
  reading _ := hw
  more _ := hm

/-- A sent byte continues within the transaction, and in STOP after a command alone. -/
theorem writeContinuation_within {row : StepRow} {p : Phase} (hw : isWritePhase p = true) :
    writeContinuation row p ≠ .idle ∧ writeContinuation row p ≠ .start ∧ writeContinuation row p ≠ .stopFail
      ∧ (writeContinuation row p = .stop → p = .writeData) := by
  cases p <;> cases hw <;> cases row <;> simp [writeContinuation, StepRow.isWrite]

theorem count_of_write {row : StepRow} (h : row.isWrite = true) : row.count = 0 := by
  cases row <;> cases h; rfl

theorem writePhase_flightInv {row : StepRow} {byte : Byte} {succ : Phase} {s t : State} (hf : FlightInv row s)
    (hrow : stepRow s.cfg s.step = some row) (hwait : row.isWait = false) (hw : isWritePhase s.phase = true)
    (hsucc : succ = writeContinuation row s.phase) (h : writePhase byte succ s = .ok t) : FlightInv row t := by
  obtain ⟨hb, hc, hp, _, hi, _, _, _, _, _, hctx, _, _⟩ := hf
  replace hc := (inconsistent_eq_false_iff _ _).1 hc
  replace hi := hi (.inl hw)
  have hr : s.r.state = .idle := hc.sending hw
  have busy (hk : s.w.state = .ackCheck ∨ (s.w.state = .shift ∧ s.w.bits = 0)) :
      s.w.succ = writeContinuation row s.phase ∧ s.w.err = .stopFail :=
    hctx (by rcases hk with hk | ⟨hk, _⟩ <;> simp [hk])
  rcases writePhase_cases h with ⟨_, rfl⟩ | ⟨hs, _, rfl⟩ | ⟨hk, hd, rfl⟩ | ⟨hk, hd, rfl⟩
  · rw [writeBit_eq]
    exact flightInv_of_sending hb (consistent_of_sending hc hw rfl rfl) hp hw hi ⟨hsucc, rfl⟩
  · rw [writeBit_eq]
    exact flightInv_of_sending hb (consistent_of_sending hc hw rfl rfl) hp hw hi (hctx (by simp [hs]))
  · have hph : s.w.continuation (ackDraw s) = writeContinuation row s.phase := by
      simp [WriteCtx.continuation, hd, (busy hk).1]
    obtain ⟨hidle, hstart, hfail, hstop⟩ := writeContinuation_within (row := row) hw
    rw [ackCheck_eq]
    refine flightInv_of_no_byte hb (consistent_continuation hrow hwait hc hw ⟨rfl, hr⟩ hi hph) hp ⟨rfl, hr⟩ hi
      ?_ ?_ ?_ <;> rw [hph]
    · exact fun h => (h.elim hidle hstart).elim
    · exact fun h => count_of_write (hc.command (hstop h))
    · exact fun h => (hfail h).elim
  · have hph : s.w.continuation (ackDraw s) = .stopFail := by simp [WriteCtx.continuation, hd, (busy hk).2]
    rw [ackCheck_eq]
    refine flightInv_of_no_byte hb (consistent_of_engineIdle ⟨rfl, hr⟩ hwait ?_ ?_ ?_ ?_) hp ⟨rfl, hr⟩ hi
      ?_ ?_ (fun _ => ⟨rfl, hw⟩) <;> simp [hph]

/-! ### Receiving -/

theorem isWait_of_isRead {row : StepRow} (h : row.isRead = true) : row.isWait = false := by
  cases row <;> cases h; rfl

/-- A byte answered and stored: more bytes are read, or the transaction stops. -/
theorem storeByte_flightInv {row : StepRow} {s u t : State} (hrd : row.isRead = true) (hcnt : row.count ≤ 3)
    (hb : s.begun = true) (hp : PopulatedBefore s.step.rank s) (hw : s.w.state = .idle)
    (hbuf : s.buf.filled s.idx.val) (hlt : s.idx.val < row.count)
    (hsucc : s.r.succ = if s.idx.val + 1 = row.count then .stop else .read)
    (hu : u = { s with r := { s.r with state := .idle }, phase := s.r.succ, lines := u.lines, trace := u.trace })
    (h : storeByte u = .ok t) : FlightInv row t := by
  obtain ⟨b, hset, rfl⟩ := storeByte_cases h
  rw [hu] at hset ⊢
  have hidx : (s.idx + 1).val = s.idx.val + 1 := Fin.val_add_one_of_lt' (by omega)
  have hbuf' : b.filled (s.idx + 1).val := hidx ▸ RxBuffer.filled_set hbuf hset
  by_cases hlast : s.idx.val + 1 = row.count
  · have hph : s.r.succ = .stop := by simp [hsucc, hlast]
    refine flightInv_of_stopping hb (consistent_of_engineIdle ⟨hw, rfl⟩ (isWait_of_isRead hrd) ?_ ?_ ?_ ?_) hp hph
      (hidx.trans hlast) hbuf' <;> simp [hph]
  · have hph : s.r.succ = .read := by simp [hsucc, hlast]
    have hmore : (s.idx + 1).val < row.count := by omega
    exact flightInv_of_reading hb (consistent_of_reading hph hrd hw fun _ => hmore) hp hph hmore.le hbuf'
      fun h => absurd rfl h

theorem phaseRead_flightInv {row : StepRow} {s t : State} (hf : FlightInv row s)
    (hrow : stepRow s.cfg s.step = some row) (hph : s.phase = .read) (h : phaseRead row s = .ok t) :
    FlightInv row t := by
  obtain ⟨hb, hc, hp, _, _, hle, _, h0, h1, h2, _, hctx, _⟩ := hf
  replace hc := (inconsistent_eq_false_iff _ _).1 hc
  have hrd : row.isRead = true := hc.reads (by simp [hph])
  have hw : s.w.state = .idle := hc.reading hph
  have hbuf : s.buf.filled s.idx.val := ⟨h0, h1, h2⟩
  have hcnt : row.count ≤ 3 := (count_of_isRead hrow hrd).2
  rcases phaseRead_cases h with ⟨he, rfl⟩ | ⟨hs, rfl⟩ | ⟨hs, rfl⟩ | ⟨hs, hst⟩ | ⟨hs, hst⟩
  · have hlt : s.idx.val < row.count := hc.more hph he.2
    rw [readPrime_eq]
    exact flightInv_of_reading hb (consistent_of_reading hph hrd hw nofun) hp hph hle hbuf fun _ => ⟨hlt, rfl, rfl⟩
  · rw [readPrime_eq]
    exact flightInv_of_reading hb (consistent_of_reading hph hrd hw nofun) hp hph hle hbuf
      fun _ => hctx (by simp [hs])
  · have hlt : s.idx.val < row.count := (hctx (by simp [hs])).1
    rw [readBit_eq]
    exact flightInv_of_reading hb (consistent_of_reading hph hrd hw fun _ => hlt) hp hph hle hbuf
      fun _ => hctx (by simp [hs])
  · obtain ⟨hlt, _, hsucc⟩ := hctx (by simp [hs])
    exact storeByte_flightInv hrd hcnt hb hp hw hbuf hlt hsucc (readSendAck_eq s ▸ rfl) hst
  · obtain ⟨hlt, _, hsucc⟩ := hctx (by simp [hs])
    exact storeByte_flightInv hrd hcnt hb hp hw hbuf hlt hsucc (readSendNack_eq s ▸ rfl) hst

end Sys2Proof.Machine
end

/-! PROOFS. Every step keeps the Sequencer's invariant (R48.6 to R48.8, R182, R196). -/
section
namespace Sys2Proof.Machine

open Relation (ReflTransGen)

/-! ### The invariant in a step with a row and in one without -/

theorem flightInv_of_sequencerInv {row : StepRow} {s : State} (h : SequencerInv s)
    (hrow : stepRow s.cfg s.step = some row) : FlightInv row s := by
  have hf := h.1
  rw [hrow] at hf
  exact hf

theorem sequencerInv_of_flightInv {row : StepRow} {s : State} (hrow : stepRow s.cfg s.step = some row)
    (h : FlightInv row s) : SequencerInv s := by
  refine ⟨?_, fun hd => ?_⟩
  · rw [hrow]; exact h
  · rw [hd] at hrow; cases hrow

theorem sequencerInv_of_resting {s : State} (hr : s.step.resting = true)
    (hd : s.step = .done → PopulatedBefore Step.done.rank s) : SequencerInv s := by
  refine ⟨?_, hd⟩
  rw [(stepRow_none_iff s.cfg s.step).2 hr]
  trivial

/-- The step and the data read are the same. -/
structure SameAcquisition (s t : State) : Prop where
  step : t.step = s.step
  devId : t.devId = s.devId
  cal : t.cal = s.cal
  ut : t.ut = s.ut
  up : t.up = s.up

/-- With no acquisition in flight the invariant speaks of the step and the data read alone. -/
theorem SameAcquisition.sequencerInv {s t : State} (h : SameAcquisition s t) (hr : s.step.resting = true)
    (hs : SequencerInv s) : SequencerInv t := by
  refine sequencerInv_of_resting (h.step ▸ hr) fun hd => ?_
  have hp := hs.2 (h.step ▸ hd)
  unfold PopulatedBefore at hp ⊢
  rw [h.devId, h.cal, h.ut, h.up]
  exact hp

theorem EngineMove.sameAcquisition {s t : State} (h : EngineMove s t) : SameAcquisition s t := by
  cases h with
  | wave | wload | rload => exact ⟨rfl, rfl, rfl, rfl, rfl⟩
  | writeBit => rw [writeBit_eq]; exact ⟨rfl, rfl, rfl, rfl, rfl⟩
  | ackCheck => rw [ackCheck_eq]; exact ⟨rfl, rfl, rfl, rfl, rfl⟩
  | readPrime => rw [readPrime_eq]; exact ⟨rfl, rfl, rfl, rfl, rfl⟩
  | readBit => rw [readBit_eq]; exact ⟨rfl, rfl, rfl, rfl, rfl⟩
  | readSendAck => rw [readSendAck_eq]; exact ⟨rfl, rfl, rfl, rfl, rfl⟩
  | readSendNack => rw [readSendNack_eq]; exact ⟨rfl, rfl, rfl, rfl, rfl⟩

/-- With no acquisition in flight, and the Sequencer's invariant. -/
def RestingInv (s : State) : Prop := s.step.resting = true ∧ SequencerInv s

theorem SameAcquisition.restingInv {s t : State} (h : SameAcquisition s t) (hs : RestingInv s) : RestingInv t := by
  obtain ⟨hr, hi⟩ := hs
  exact ⟨h.step ▸ hr, h.sequencerInv hr hi⟩

theorem engineMoves_restingInv {s t : State} (hs : RestingInv s) (h : ReflTransGen EngineMove s t) : RestingInv t :=
  moves_keep (P := RestingInv) (fun hu hm => (EngineMove.sameAcquisition hm).restingInv hu) hs h

/-! ### Entering a step -/

theorem entryPhase_of_row {c : Cfg} {st : Step} {row : StepRow} (h : stepRow c st = some row) :
    entryPhase st = if row.isWait then .idle else .start := by
  cases st <;> cases h <;> rfl

/-- The start of a step: the bus and the engine idle, no byte received, and the phase the row is entered in. -/
theorem flightInv_of_entered {row : StepRow} {t : State} (hb : t.begun = true)
    (hp : PopulatedBefore t.step.rank t) (he : t.EngineIdle) (hl : t.BusIdle) (hi : t.idx.val = 0)
    (hph : t.phase = if row.isWait then .idle else .start) : FlightInv row t := by
  have hc : Consistent row t := by
    cases hw : row.isWait with
    | false =>
      have hstart : t.phase = .start := by simp [hph, hw]
      exact consistent_of_engineIdle he hw (by simp [hstart]) (by simp [hstart]) (by simp [hstart]) (by simp [hstart])
    | true =>
      have hidle : t.phase = .idle := by simp [hph, hw]
      exact ⟨by simp [hw], fun _ => ⟨hidle, he⟩, by simp [hidle], by simp [hidle], by simp [hidle],
        by simp [hidle, isWritePhase], by simp [hidle], by simp [hidle]⟩
  refine flightInv_of_no_byte hb hc hp he hi (fun _ => hl) ?_ ?_ <;> rw [hph] <;> split <;> simp

theorem sequencerInv_of_entered {t : State} (hb : t.begun = true) (hp : PopulatedBefore t.step.rank t)
    (he : t.EngineIdle) (hl : t.BusIdle) (hi : t.idx.val = 0) (hph : t.phase = entryPhase t.step) :
    SequencerInv t := by
  cases hrow : stepRow t.cfg t.step with
  | none => exact sequencerInv_of_resting ((stepRow_none_iff _ _).1 hrow) fun hd => hd ▸ hp
  | some row =>
    exact sequencerInv_of_flightInv hrow
      (flightInv_of_entered hb hp he hl hi (hph.trans (entryPhase_of_row hrow)))

/-! ### SEQSTEP -/

theorem commit_unchanged {row : StepRow} {s t : State} (h : commit row s = .ok t) :
    t.begun = s.begun ∧ t.lines = s.lines ∧ t.w = s.w ∧ t.r = s.r := by
  rcases commit_cases h with ⟨_, rfl⟩ | ⟨_, _, _, _, _, rfl⟩ | ⟨_, _, _, _, _, _, _, _, rfl⟩ |
    ⟨_, _, _, _, _, _, _, rfl⟩ | ⟨_, _, _, _, _, _, _, _, _, rfl⟩ <;> exact ⟨rfl, rfl, rfl, rfl⟩

theorem phaseStop_sequencerInv {row : StepRow} {s t : State} (hf : FlightInv row s)
    (hrow : stepRow s.cfg s.step = some row) (h : phaseStop row s = .ok t) : SequencerInv t := by
  obtain ⟨hb, _, hp, _⟩ := hf
  obtain ⟨he, u, nxt, hu, hn, rfl⟩ := phaseStop_cases h
  obtain ⟨hub, hul, huw, hur⟩ := commit_unchanged hu
  have hpu : PopulatedBefore nxt.rank u := commit_populatedBefore hrow hn hu hp
  refine sequencerInv_of_entered (hub.trans hb) hpu ⟨?_, ?_⟩ hul rfl rfl
  · rw [State.enter_w, huw]; exact he.1
  · rw [State.enter_r, hur]; exact he.2

/-- The two waits (R182). -/
theorem wait_row_cases {c : Cfg} {st : Step} {e : BusEvent} (h : stepRow c st = some (.wait e)) :
    (st = .waitT1 ∧ e = .sleepT1) ∨ (st = .waitT2 ∧ e = .sleepT2) := by
  cases st <;> cases h <;> simp

theorem waitStep_sequencerInv {sleep : BusEvent} {s t : State} (hf : FlightInv (.wait sleep) s)
    (hrow : stepRow s.cfg s.step = some (.wait sleep)) (h : waitStep sleep s = .ok t) : SequencerInv t := by
  obtain ⟨hb, hc, hp, hbus, _⟩ := hf
  obtain ⟨nxt, hn, rfl⟩ := waitStep_cases h
  obtain ⟨hph, he⟩ := ((inconsistent_eq_false_iff _ _).1 hc).waiting rfl
  have hl : s.lines = ⟨some true, some true⟩ := (hbus (.inl hph)).1
  have hpn : PopulatedBefore nxt.rank s := commit_populatedBefore hrow hn rfl hp
  rcases wait_row_cases hrow with ⟨hst, rfl⟩ | ⟨hst, rfl⟩ <;> rw [hst] at hn <;> cases hn <;>
    exact sequencerInv_of_entered hb hpn he hl rfl rfl

theorem phaseStart_flightInv {row : StepRow} {s t : State} (hf : FlightInv row s) (hwait : row.isWait = false)
    (hph : s.phase = .start) (h : phaseStart s = .ok t) : FlightInv row t := by
  obtain ⟨hb, _, hp, hbus, _⟩ := hf
  obtain ⟨he, rfl⟩ := (phaseStart_ok_iff _ _).1 h
  exact flightInv_of_no_byte hb (consistent_of_engineIdle he hwait nofun nofun (by simp) nofun) hp he
    (hbus (.inr hph)).2 (by simp) nofun nofun

theorem phaseRestart_flightInv {row : StepRow} {s t : State} (hf : FlightInv row s) (hwait : row.isWait = false)
    (hph : s.phase = .restart) (h : phaseRestart s = .ok t) : FlightInv row t := by
  obtain ⟨hb, hc, hp, _, hi, _⟩ := hf
  have hrd : row.isRead = true := ((inconsistent_eq_false_iff _ _).1 hc).reads (.inl hph)
  obtain ⟨he, rfl⟩ := (phaseRestart_ok_iff _ _).1 h
  exact flightInv_of_no_byte hb (consistent_of_engineIdle he hwait nofun nofun (fun _ => hrd) nofun) hp he
    (hi (.inr hph)) (by simp) nofun nofun

theorem writePhase_step {byte : Byte} {succ : Phase} {s t : State} (h : writePhase byte succ s = .ok t) :
    t.step = s.step := by
  rcases writePhase_cases h with ⟨_, rfl⟩ | ⟨_, _, rfl⟩ | ⟨_, _, rfl⟩ | ⟨_, _, rfl⟩ <;>
    simp [writeBit_eq, ackCheck_eq]

theorem phaseRead_step {row : StepRow} {s t : State} (h : phaseRead row s = .ok t) : t.step = s.step := by
  rcases phaseRead_cases h with ⟨_, rfl⟩ | ⟨_, rfl⟩ | ⟨_, rfl⟩ | ⟨_, hb⟩ | ⟨_, hb⟩
  · simp [readPrime_eq]
  · simp [readPrime_eq]
  · simp [readBit_eq]
  · obtain ⟨b, _, rfl⟩ := storeByte_cases hb
    simp [readSendAck_eq]
  · obtain ⟨b, _, rfl⟩ := storeByte_cases hb
    simp [readSendNack_eq]

theorem phaseStart_step {s t : State} (h : phaseStart s = .ok t) : t.step = s.step := by
  obtain ⟨_, rfl⟩ := (phaseStart_ok_iff _ _).1 h
  rfl

theorem phaseRestart_step {s t : State} (h : phaseRestart s = .ok t) : t.step = s.step := by
  obtain ⟨_, rfl⟩ := (phaseRestart_ok_iff _ _).1 h
  rfl

/-- A dispatch leaves its step in a wait, in STOP and in STOP_FAIL alone. -/
theorem seqDispatch_step_cases {row : StepRow} {s t : State} (h : seqDispatch row s = .ok t) :
    (∃ sleep, row = .wait sleep ∧ waitStep sleep s = .ok t) ∨ phaseStop row s = .ok t ∨ phaseStopFail s = .ok t
      ∨ (row.isWait = false ∧ t.step = s.step) := by
  rcases seqDispatch_cases h with hw | ⟨hwait, ⟨_, hp⟩ | ⟨_, hp⟩ | ⟨_, _, _, _, _, hp⟩ | ⟨_, _, _, _, hp⟩ |
    ⟨_, _, _, _, hp⟩ | ⟨_, hp⟩ | ⟨_, hp⟩ | ⟨_, hp⟩ | ⟨_, hp⟩ | ⟨_, hp⟩⟩
  · exact .inl hw
  · exact .inr (.inr (.inr ⟨hwait, phaseStart_step hp⟩))
  · exact .inr (.inr (.inr ⟨hwait, writePhase_step hp⟩))
  · exact .inr (.inr (.inr ⟨hwait, writePhase_step hp⟩))
  · exact .inr (.inr (.inr ⟨hwait, writePhase_step hp⟩))
  · exact .inr (.inr (.inr ⟨hwait, writePhase_step hp⟩))
  · exact .inr (.inr (.inr ⟨hwait, phaseRestart_step hp⟩))
  · exact .inr (.inr (.inr ⟨hwait, writePhase_step hp⟩))
  · exact .inr (.inr (.inr ⟨hwait, phaseRead_step hp⟩))
  · exact .inr (.inl hp)
  · exact .inr (.inr (.inl hp))

theorem seqDispatch_sequencerInv {row : StepRow} {s t : State} (hf : FlightInv row s)
    (hrow : stepRow s.cfg s.step = some row) (h : seqDispatch row s = .ok t) : SequencerInv t := by
  have stays (hst : t.step = s.step) (ht : FlightInv row t) : SequencerInv t :=
    sequencerInv_of_flightInv (by rw [hst, seqDispatch_cfg h, hrow]) ht
  rcases seqDispatch_cases h with ⟨_, rfl, hw⟩ | ⟨hwait, ⟨hph, hp⟩ | ⟨hph, hp⟩ | ⟨_, _, _, hph, rfl, hp⟩ |
    ⟨_, _, hph, rfl, hp⟩ | ⟨_, _, hph, rfl, hp⟩ | ⟨hph, hp⟩ | ⟨hph, hp⟩ | ⟨hph, hp⟩ | ⟨_, hp⟩ | ⟨_, hp⟩⟩
  · exact waitStep_sequencerInv hf hrow hw
  · exact stays (phaseStart_step hp) (phaseStart_flightInv hf hwait hph hp)
  · exact stays (writePhase_step hp) (writePhase_flightInv hf hrow hwait (hph ▸ rfl) (hph ▸ rfl) hp)
  · exact stays (writePhase_step hp) (writePhase_flightInv hf hrow hwait (hph ▸ rfl) (hph ▸ rfl) hp)
  · exact stays (writePhase_step hp) (writePhase_flightInv hf hrow hwait (hph ▸ rfl) (hph ▸ rfl) hp)
  · exact stays (writePhase_step hp) (writePhase_flightInv hf hrow hwait (hph ▸ rfl) (hph ▸ rfl) hp)
  · exact stays (phaseRestart_step hp) (phaseRestart_flightInv hf hwait hph hp)
  · exact stays (writePhase_step hp) (writePhase_flightInv hf hrow hwait (hph ▸ rfl) (hph ▸ rfl) hp)
  · exact stays (phaseRead_step hp) (phaseRead_flightInv hf hrow hph hp)
  · exact phaseStop_sequencerInv hf hrow hp
  · obtain ⟨_, rfl⟩ := (phaseStopFail_ok_iff _ _).1 hp
    exact sequencerInv_of_resting rfl nofun

theorem seqstep_sequencerInv {s t : State} {r : SeqReturn} (hs : SequencerInv s) (h : seqstep s = .ok (t, r)) :
    SequencerInv t := by
  obtain ⟨_, row, hrow, _, hd, _⟩ := (seqstep_ok_iff _ _ _).1 h
  exact seqDispatch_sequencerInv (flightInv_of_sequencerInv hs hrow) hrow hd

/-! ### ASTART, COMPENSATE and ACQUIRE -/

/-- Nothing is read before the first step. -/
theorem populatedBefore_first (s : State) : PopulatedBefore Step.readDeviceId.rank s := by
  simp [PopulatedBefore, Step.rank, Step.code]

theorem astart_sequencerInv {s t : State} (h : astart s = .ok t) : SequencerInv t := by
  obtain ⟨hb, _, he, hl, rfl⟩ := (astart_ok_iff _ _).1 h
  exact sequencerInv_of_entered hb (populatedBefore_first _) he hl rfl rfl

theorem compensate_sequencerInv {s t : State} (hs : SequencerInv s) (h : compensate s = .ok t) :
    SequencerInv t := by
  obtain ⟨_, hr, i, _, rfl⟩ := (compensate_ok_iff _ _).1 h
  exact SameAcquisition.sequencerInv (s := s) ⟨rfl, rfl, rfl, rfl, rfl⟩ hr hs

theorem acquireLoop_sequencerInv {n : Nat} {s t : State} (hs : SequencerInv s) (h : acquireLoop n s = .ok t) :
    SequencerInv t := by
  induction n generalizing s with
  | zero => cases h; exact hs
  | succ n ih =>
    obtain ⟨u, r, hu, h⟩ := (acquireLoop_succ_ok_iff _ _ _).1 h
    have hui : SequencerInv u := seqstep_sequencerInv hs hu
    split at h
    · exact ih hui h
    · exact h ▸ hui

theorem acquireOp_sequencerInv {s t : State} (h : acquireOp s = .ok t) : SequencerInv t := by
  obtain ⟨u, v, hu, hv, h⟩ := (acquireOp_ok_iff _ _).1 h
  have hvi : SequencerInv v := acquireLoop_sequencerInv (astart_sequencerInv hu) hv
  split at h
  · next hfail =>
    rw [h]
    exact SameAcquisition.sequencerInv (s := v) ⟨rfl, rfl, rfl, rfl, rfl⟩ (by rw [hfail]; rfl) hvi
  · exact compensate_sequencerInv hvi h

/-! ### Steps -/

theorem Runs.sequencerInv {s u : State} (hs : SequencerInv s) (h : Runs s u) : SequencerInv u := by
  have engine (hr : s.step.resting = true) {t : State} (ht : ReflTransGen EngineMove t u)
      (hst : SameAcquisition s t) : SequencerInv u := (engineMoves_restingInv (hst.restingInv ⟨hr, hs⟩) ht).2
  have same : SameAcquisition s s := ⟨rfl, rfl, rfl, rfl, rfl⟩
  cases h with
  | beginLines h =>
    obtain ⟨hr, _, rfl⟩ := (beginLines_ok_iff _ _).1 h
    exact SameAcquisition.sequencerInv (s := s) ⟨rfl, rfl, rfl, rfl, rfl⟩ hr hs
  | start _ hr h => exact engine hr (.single (startCondition_engineMove h)) same
  | stop _ hr h => exact engine hr (.single (stopCondition_engineMove h)) same
  | wload _ hr h => exact engine hr (.single (wload_engineMove h)) same
  | wstep _ hr h => exact engine hr (.single (wstep_engineMove h)) same
  | rload _ hr h => exact engine hr (.single (rload_engineMove h)) same
  | rstep _ hr h => exact engine hr (.single (rstep_engineMove h)) same
  | astart h => exact astart_sequencerInv h
  | seqstep h => exact seqstep_sequencerInv hs h
  | compensate h => exact compensate_sequencerInv hs h
  | acquire h => exact acquireOp_sequencerInv h
  | sentByte _ hr _ h => exact engine hr (wsteps_engineMoves h) ⟨rfl, rfl, rfl, rfl, rfl⟩
  | receivedByte _ hr _ h => exact engine hr (rsteps_engineMoves h) ⟨rfl, rfl, rfl, rfl, rfl⟩
  | sampledSlot _ hr _ h => exact engine hr (.single (wstep_engineMove h)) ⟨rfl, rfl, rfl, rfl, rfl⟩

/-- Settles O16: the engine's moves keep its counters, and every procedure leaves an acquisition in flight in a legal
state. -/
theorem machineInvariantKept : Obligations.MachineInvariantKept :=
  fun _ _ hs h => step_keeps (P := MachineInv) (fun _ _ _ _ _ hp => hp)
    (fun hp hr => ⟨hr.engineInv hp.1, hr.sequencerInv hp.2⟩) hs h

end Sys2Proof.Machine
end

/-! PROOFS. The marks, and the operations before BEGIN. -/
section
namespace Sys2Proof.Machine

/-! ### The marks (R44, R96, R274) -/

theorem step_of_refused {s : State} {x : Word} {rest : List Word} {e : DecodeError} (h : s.pending = x :: rest)
    (hd : decode x = .error e) : step s = .next { s with pending := rest, refused := true } := by
  simp only [step, State.fetch, h, hd, State.refuse]

theorem exec_of_not_clear {s : State} (i : Instr) (h : ¬ s.Clear) : exec i s = .next s :=
  (exec_eq_invoke i s).trans (invoke_marked h)

theorem not_clear_of_mark {s : State} (h : s.fault ≠ none ∨ s.refused = true) : ¬ s.Clear := by
  rintro ⟨hf, hr⟩
  rcases h with h | h
  · exact h hf
  · simp [hr] at h

/-- Settles O7: a mark stops every instruction, so a step from a faulted state can only take a word and refuse it. -/
theorem marksAreSticky : Obligations.MarksAreSticky := by
  refine ⟨fun s x rest e hp hd => step_of_refused hp hd, fun i s hm => exec_of_not_clear i (not_clear_of_mark hm),
    fun s t hf h => ?_⟩
  rcases step_cases h with ⟨_, ho⟩ | ⟨_, rest, _, _, _, ho⟩ | ⟨_, rest, i, _, _, ho⟩
  · cases ho; rfl
  · cases ho; rfl
  · have hm : ({ s with pending := rest } : State).fault ≠ none := hf
    cases ho.trans (exec_of_not_clear i (not_clear_of_mark (.inl hm)))
    rfl

/-! ### Before the first BEGIN (R23) -/

theorem astart_notBegun {s : State} (h : s.begun = false) : astart s = .error .notBegun := by simp [astart, h]

theorem seqstep_notBegun {s : State} (h : s.begun = false) : seqstep s = .error .notBegun := by simp [seqstep, h]

theorem compensate_notBegun {s : State} (h : s.begun = false) : compensate s = .error .notBegun := by
  simp [compensate, h]

theorem acquireOp_notBegun {s : State} (h : s.begun = false) : acquireOp s = .error .notBegun :=
  except_bind_error_iff.2 (.inl (astart_notBegun h))

theorem execBody_notBegun {i : Instr} {s : State} (hi : i ≠ .beginBus) (h : s.begun = false) :
    execBody i s = .error .notBegun := by
  have hg : hostGuard s = .error .notBegun := hostGuard_notBegun h
  cases i with
  | beginBus => exact absurd rfl hi
  | astart => exact except_bind_error_iff.2 (.inl (astart_notBegun h))
  | seqstep => exact except_bind_error_iff.2 (.inl (seqstep_notBegun h))
  | compensate => exact except_bind_error_iff.2 (.inl (compensate_notBegun h))
  | acquire => exact except_bind_error_iff.2 (.inl (acquireOp_notBegun h))
  | start | stop | wload | wstep | rload | rstep | addrW | addrR | regSelect | cmdTemp | cmdPres | data | ack | nack =>
    exact except_bind_error_iff.2 (.inl hg)

/-- Settles O8: every body but BEGIN's asks for `begun` first. -/
theorem notBegunFaults : Obligations.NotBegunFaults :=
  fun i s hi hc hb => (exec_eq_invoke i s).trans (invoke_error hc (execBody_notBegun hi hb))

end Sys2Proof.Machine
end

/-! PROOFS. The reset state (R300), and the host's view of a state (R45). -/
section
namespace Sys2Proof.Machine

/-! ### The reset state -/

theorem engineInv_resetWith (c : Cfg) : EngineInv (State.resetWith c) := engineInv_of_read_idle rfl nofun nofun

theorem sequencerInv_resetWith (c : Cfg) : SequencerInv (State.resetWith c) := sequencerInv_of_resting rfl nofun

/-- Settles O17: at reset both sub-machines are idle, no acquisition is in flight and the trace is empty. -/
theorem invariantsHoldAtReset : Obligations.InvariantsHoldAtReset :=
  fun c => ⟨⟨engineInv_resetWith c, sequencerInv_resetWith c⟩, rfl, nofun⟩

/-! ### The host's view -/

theorem toNat_ofNat_idx (i : Fin 4) : (BitVec.ofNat 2 i.val).toNat = i.val := by
  rw [BitVec.toNat_ofNat]
  exact Nat.mod_eq_of_lt i.isLt

/-- Settles O25: the view's fields are the state's by definition, and `idx` fits two bits. -/
theorem statusView : Obligations.StatusView :=
  ⟨fun s => ⟨rfl, rfl, rfl, rfl, rfl, rfl, rfl, rfl, rfl, rfl, rfl, rfl, toNat_ofNat_idx s.idx, rfl, rfl, rfl⟩,
    rfl, rfl, rfl, rfl, rfl, rfl, rfl⟩

end Sys2Proof.Machine
end

/-! PROOFS. A SEQSTEP comes to rest by a stop condition (R48.6, R48.7, R203). -/
section
namespace Sys2Proof.Machine

/-- The bus and the engine at rest, right after a stop condition. -/
def Stopped (s t : State) : Prop := t.trace = s.trace ++ stopWave ∧ t.BusIdle ∧ t.EngineIdle ∧ t.phase = .idle

/-- The steps that are entered by a stop condition: the waits and the two ends. -/
def Step.afterStop (st : Step) : Prop := st = .waitT1 ∨ st = .waitT2 ∨ st = .done ∨ st = .failed

theorem commit_trace {row : StepRow} {s t : State} (h : commit row s = .ok t) : t.trace = s.trace := by
  rcases commit_cases h with ⟨_, rfl⟩ | ⟨_, _, _, _, _, rfl⟩ | ⟨_, _, _, _, _, _, _, _, rfl⟩ |
    ⟨_, _, _, _, _, _, _, rfl⟩ | ⟨_, _, _, _, _, _, _, _, _, rfl⟩ <;> rfl

theorem entryPhase_of_afterStop {st nxt : Step} (hn : st.next = some nxt) (h : nxt.afterStop) :
    entryPhase nxt = .idle := by
  rcases h with rfl | rfl | rfl | rfl
  · rfl
  · rfl
  · rfl
  · cases st <;> cases hn

theorem phaseStop_stopped {row : StepRow} {s t : State} (h : phaseStop row s = .ok t) (ht : t.step.afterStop) :
    Stopped s t := by
  obtain ⟨he, u, nxt, hu, hn, rfl⟩ := phaseStop_cases h
  obtain ⟨_, hl, hw, hr⟩ := commit_unchanged hu
  exact ⟨commit_trace hu, hl, ⟨hw ▸ he.1, hr ▸ he.2⟩, entryPhase_of_afterStop hn ht⟩

theorem phaseStopFail_stopped {s t : State} (h : phaseStopFail s = .ok t) : Stopped s t := by
  obtain ⟨he, rfl⟩ := (phaseStopFail_ok_iff _ _).1 h
  exact ⟨rfl, rfl, he, rfl⟩

/-- A wait is followed by the read of its result. -/
theorem not_afterStop_of_wait {c : Cfg} {st nxt : Step} {e : BusEvent} (h : stepRow c st = some (.wait e))
    (hn : st.next = some nxt) : ¬ nxt.afterStop := by
  rcases wait_row_cases h with ⟨rfl, _⟩ | ⟨rfl, _⟩ <;> cases hn <;> simp [Step.afterStop]

/-- A step with a transaction is neither a wait nor an end. -/
theorem not_afterStop_of_row {c : Cfg} {st : Step} {row : StepRow} (h : stepRow c st = some row)
    (hw : row.isWait = false) : ¬ st.afterStop := by
  rintro (rfl | rfl | rfl | rfl) <;> cases h <;> cases hw

theorem seqstep_stopped {s t : State} {r : SeqReturn} (h : seqstep s = .ok (t, r)) (ht : t.step.afterStop) :
    Stopped s t := by
  obtain ⟨_, row, hrow, _, hd, _⟩ := (seqstep_ok_iff _ _ _).1 h
  rcases seqDispatch_step_cases hd with ⟨_, rfl, hw⟩ | hp | hp | ⟨hwait, hst⟩
  · obtain ⟨nxt, hn, rfl⟩ := waitStep_cases hw
    exact absurd ht (not_afterStop_of_wait hrow hn)
  · exact phaseStop_stopped hp ht
  · exact phaseStopFail_stopped hp
  · exact absurd (hst ▸ ht) (not_afterStop_of_row hrow hwait)

/-- Settles O44: only the phases STOP and STOP_FAIL enter such a step. -/
theorem stopBeforeRest : Obligations.StopBeforeRest := by
  intro s t hc h hnf hst
  rcases invoke_cases ((exec_eq_invoke .seqstep s).symm.trans h) with ⟨hm, _⟩ | ⟨_, hb⟩ | ⟨_, f, _, rfl⟩
  · exact absurd hc hm
  · obtain ⟨⟨u, r⟩, hu, rfl⟩ := bind_returning_ok_iff.1 hb
    exact (seqstep_stopped hu hst :)
  · cases hnf

end Sys2Proof.Machine
end

/-! PROOFS. The calculator's results are s32 values (R231, R242). -/
section
namespace Sys2Proof.Machine

theorem compTemperature_fits {i : CompInput} {b5 t : Int} (h : compTemperature i = .ok (b5, t)) : inS32 t := by
  unfold compTemperature at h
  simp only [except_bind_ok_iff, nodeS_ok_iff] at h
  obtain ⟨_, _, _, _, _, _, _, _, _, _, _, _, _, _, t7, ⟨h7, rfl⟩, h⟩ := h
  cases h
  unfold sar
  omega

theorem compCorrect_fits {p q : Int} (h : compCorrect p = .ok q) : inS32 q := by
  unfold compCorrect at h
  simp only [except_bind_ok_iff, nodeS_ok_iff] at h
  obtain ⟨_, _, _, _, _, _, _, _, _, _, h26, rfl⟩ := h
  exact h26

theorem comp_fits {i : CompInput} {oss : Nat} {t p : Int} (h : comp i oss = .ok (t, p)) : inS32 t ∧ inS32 p := by
  unfold comp at h
  simp only [except_bind_ok_iff] at h
  obtain ⟨⟨b5, t'⟩, ht, ⟨_, _, _⟩, _, ⟨_, _⟩, _, _, _, q, hq, h⟩ := h
  cases h
  exact ⟨compTemperature_fits ht, compCorrect_fits hq⟩

theorem toInt_ofInt_of_inS32 {v : Int} (h : inS32 v) : (BitVec.ofInt 32 v).toInt = v := by
  rw [BitVec.toInt_ofInt]
  exact Int.bmod_eq_of_le (by omega) (by omega)

/-- Settles O48: the last node of each stage is checked to be s32. -/
theorem compResultFits : Obligations.CompResultFits := by
  intro i oss t p h
  obtain ⟨ht, hp⟩ := comp_fits h
  exact ⟨toInt_ofInt_of_inS32 ht, toInt_ofInt_of_inS32 hp⟩

end Sys2Proof.Machine
end

/-! PROOFS. What each instruction may write (R46). -/
section
namespace Sys2Proof.Machine

open Relation (ReflTransGen)

/-! ### SEQSTEP and ACQUIRE -/

/-- The fields that no SEQSTEP and no ACQUIRE writes are the same. -/
structure SameHost (s t : State) : Prop where
  cfg : t.cfg = s.cfg
  begun : t.begun = s.begun
  fault : t.fault = s.fault
  refused : t.refused = s.refused
  pending : t.pending = s.pending

theorem SameHost.refl (s : State) : SameHost s s := ⟨rfl, rfl, rfl, rfl, rfl⟩

theorem SameHost.trans {s t u : State} (h₁ : SameHost s t) (h₂ : SameHost t u) : SameHost s u :=
  ⟨h₂.cfg.trans h₁.cfg, h₂.begun.trans h₁.begun, h₂.fault.trans h₁.fault, h₂.refused.trans h₁.refused,
    h₂.pending.trans h₁.pending⟩

theorem EngineMove.sameHost {s t : State} (h : EngineMove s t) : SameHost s t ∧ t.result = s.result := by
  cases h with
  | wave | wload | rload => exact ⟨⟨rfl, rfl, rfl, rfl, rfl⟩, rfl⟩
  | writeBit => rw [writeBit_eq]; exact ⟨⟨rfl, rfl, rfl, rfl, rfl⟩, rfl⟩
  | ackCheck => rw [ackCheck_eq]; exact ⟨⟨rfl, rfl, rfl, rfl, rfl⟩, rfl⟩
  | readPrime => rw [readPrime_eq]; exact ⟨⟨rfl, rfl, rfl, rfl, rfl⟩, rfl⟩
  | readBit => rw [readBit_eq]; exact ⟨⟨rfl, rfl, rfl, rfl, rfl⟩, rfl⟩
  | readSendAck => rw [readSendAck_eq]; exact ⟨⟨rfl, rfl, rfl, rfl, rfl⟩, rfl⟩
  | readSendNack => rw [readSendNack_eq]; exact ⟨⟨rfl, rfl, rfl, rfl, rfl⟩, rfl⟩

theorem SeqMove.sameHost {s t : State} (h : SeqMove s t) : SameHost s t ∧ t.result = s.result := by
  rcases h with h | h
  · exact h.sameHost
  · exact ⟨⟨(congrArg State.cfg h :), (congrArg State.begun h :), (congrArg State.fault h :),
      (congrArg State.refused h :), (congrArg State.pending h :)⟩, (congrArg State.result h :)⟩

theorem seqMoves_sameHost {s t : State} (h : ReflTransGen SeqMove s t) : SameHost s t ∧ t.result = s.result :=
  moves_keep (P := fun u => SameHost s u ∧ u.result = s.result)
    (fun hs hm => ⟨hs.1.trans (SeqMove.sameHost hm).1, (SeqMove.sameHost hm).2.trans hs.2⟩) ⟨.refl s, rfl⟩ h

theorem acquireOp_sameHost {s t : State} (h : acquireOp s = .ok t) : SameHost s t := by
  obtain ⟨u, v, hu, hv, h⟩ := (acquireOp_ok_iff _ _).1 h
  obtain ⟨_, _, _, _, rfl⟩ := (astart_ok_iff _ _).1 hu
  have hsv : SameHost s v :=
    SameHost.trans (t := s.clearAcquisition) ⟨rfl, rfl, rfl, rfl, rfl⟩ (seqMoves_sameHost (acquireLoop_seqMoves hv)).1
  split at h
  · rw [h]
    exact hsv.trans ⟨rfl, rfl, rfl, rfl, rfl⟩
  · obtain ⟨_, _, i, _, rfl⟩ := (compensate_ok_iff _ _).1 h
    exact hsv.trans ⟨rfl, rfl, rfl, rfl, rfl⟩

/-- With those fields the same, the fields that ACQUIRE's row of R46 lists and `ret` are all that can differ. -/
theorem SameHost.frame {s t : State} (h : SameHost s t) :
    t = { s with
      w := t.w, r := t.r, lastAck := t.lastAck, lines := t.lines, trace := t.trace, step := t.step
      phase := t.phase, idx := t.idx, buf := t.buf, devId := t.devId, cal := t.cal, ut := t.ut, up := t.up
      failStep := t.failStep, failPhase := t.failPhase, errCode := t.errCode, result := t.result
      env := t.env, ret := t.ret } := by
  rw [← h.cfg, ← h.begun, ← h.fault, ← h.refused, ← h.pending]

/-! ### The byte sub-machines -/

theorem wstep_frame {s t : State} {r : WReturn} (h : wstep s = .ok (t, r)) :
    t = { s with
      w := { s.w with state := t.w.state, byte := t.w.byte, bits := t.w.bits }
      lastAck := t.lastAck, phase := t.phase, lines := t.lines, trace := t.trace, env := t.env } := by
  rcases wstep_cases h with ⟨_, _, rfl, _⟩ | ⟨_, ha⟩
  · rw [writeBit_eq]
  · rw [ackCheck_eq] at ha
    cases ha
    rfl

theorem rstep_frame {s t : State} {r : RReturn} (h : rstep s = .ok (t, r)) :
    t = { s with
      r := { s.r with state := t.r.state, byte := t.r.byte, bits := t.r.bits }
      phase := t.phase, lines := t.lines, trace := t.trace, env := t.env } := by
  rcases rstep_cases h with ⟨_, rfl, _⟩ | ⟨_, rfl, _⟩ | ⟨_, rfl, _⟩ | ⟨_, rfl, _⟩
  · rw [readPrime_eq]
  · rw [readBit_eq]
  · rw [readSendAck_eq]
  · rw [readSendNack_eq]

/-! ### The bus patterns -/

/-- Write bit steps touch the write context, the lines and the trace alone. -/
def SendFrame (s t : State) : Prop := t = { s with w := t.w, lines := t.lines, trace := t.trace }

theorem SendFrame.trans {s t u : State} (h₁ : SendFrame s t) (h₂ : SendFrame t u) : SendFrame s u := by
  unfold SendFrame at *
  rw [h₂, h₁]

/-- As many write steps as there are bits left send bits and check no acknowledgement. -/
theorem wsteps_sendFrame {n : Nat} {s t : State} {r : WReturn} (hs : n ≠ 0 → s.w.state = .shift)
    (hn : n ≤ s.w.bits.val) (h : wsteps n s = .ok (t, r)) : SendFrame s t := by
  induction n generalizing s with
  | zero => cases h; rfl
  | succ n ih =>
    obtain ⟨u, q, hu, h⟩ := (wsteps_succ_ok_iff _ _ _ _).1 h
    have hb : s.w.bits ≠ 0 := fun h0 => by simp [h0] at hn
    have hsh : s.w.state = .shift := hs (by omega)
    rcases wstep_cases hu with ⟨_, _, rfl, _⟩ | ⟨hk | ⟨_, h0⟩, _⟩
    · have hsu : SendFrame s (writeBit s) := by rw [writeBit_eq]; rfl
      have hcd : (countDown s.w.bits).val = s.w.bits.val - 1 := countDown_val _
      refine hsu.trans (ih (fun hne => ?_) ?_ h)
      · have hne0 : countDown s.w.bits ≠ 0 := fun h0 => by rw [h0] at hcd; simp at hcd; omega
        simp [writeBit_eq, hne0]
      · rw [writeBit_eq]
        show n ≤ (countDown s.w.bits).val
        omega
    · simp [hsh] at hk
    · exact absurd h0 hb

theorem sendByte_frame {byte : Byte} {succ : Phase} {s t : State} (h : sendByte byte succ s = .ok t) :
    t = { s with w := t.w, lines := t.lines, trace := t.trace, ret := t.ret } := by
  obtain ⟨_, _, _, u, r, hu, rfl⟩ := (sendByte_ok_iff _ _ _ _).1 h
  have hf : SendFrame _ u := wsteps_sendFrame (fun _ => rfl) (le_refl 8) hu
  unfold SendFrame at hf
  rw [hf]
  rfl

/-- Priming and read bit steps touch the read context, the lines, the trace and the environment alone. -/
def ReceiveFrame (s t : State) : Prop :=
  t = { s with r := t.r, lines := t.lines, trace := t.trace, env := t.env }

theorem ReceiveFrame.trans {s t u : State} (h₁ : ReceiveFrame s t) (h₂ : ReceiveFrame t u) : ReceiveFrame s u := by
  unfold ReceiveFrame at *
  rw [h₂, h₁]

/-- As many read steps as there are bits left take bits and answer no byte. -/
theorem rsteps_receiveFrame {n : Nat} {s t : State} {r : RReturn} (hs : n ≠ 0 → s.r.state = .reading)
    (hn : n ≤ s.r.bits.val) (h : rsteps n s = .ok (t, r)) : ReceiveFrame s t := by
  induction n generalizing s with
  | zero => cases h; rfl
  | succ n ih =>
    obtain ⟨u, q, hu, h⟩ := (rsteps_succ_ok_iff _ _ _ _).1 h
    have hb : s.r.bits ≠ 0 := fun h0 => by simp [h0] at hn
    have hrd : s.r.state = .reading := hs (by omega)
    rcases rstep_cases hu with ⟨hk, _⟩ | ⟨_, rfl, _⟩ | ⟨hk, _⟩ | ⟨hk, _⟩
    · simp [hrd] at hk
    · have hsu : ReceiveFrame s (readBit s) := by rw [readBit_eq]; rfl
      have hcd : (countDown s.r.bits).val = s.r.bits.val - 1 := countDown_val _
      refine hsu.trans (ih (fun hne => ?_) ?_ h)
      · have hne0 : countDown s.r.bits ≠ 0 := fun h0 => by rw [h0] at hcd; simp at hcd; omega
        simp [readBit_eq, readCountAfter_of_ne hb, hne0]
      · rw [readBit_eq, readCountAfter_of_ne hb]
        show n ≤ (countDown s.r.bits).val
        omega
    · simp [hrd] at hk
    · simp [hrd] at hk

theorem receiveByte_frame {d : Byte} {s t : State} (h : receiveByte d s = .ok t) :
    t = { s with r := t.r, lines := t.lines, trace := t.trace, env := t.env, ret := t.ret } := by
  obtain ⟨_, _, hp, u, r, hu, rfl⟩ := receiveByte_cases h
  obtain ⟨v, q, hv, hu⟩ := (rsteps_succ_ok_iff 8 _ _ _).1 hu
  rcases rstep_cases hv with ⟨_, rfl, _⟩ | ⟨hk, _⟩ | ⟨hk, _⟩ | ⟨hk, _⟩
  · have hf : ReceiveFrame _ u := rsteps_receiveFrame (fun _ => rfl) (le_refl 8) hu
    unfold ReceiveFrame at hf
    rw [hf, readPrime_eq]
    rfl
  all_goals simp [hp] at hk

theorem ackSlot_frame {v : Bit} {s t : State} (h : ackSlot v s = .ok t) :
    t = { s with
      w := t.w, r := t.r, lastAck := t.lastAck, phase := t.phase, lines := t.lines, trace := t.trace
      env := t.env, ret := t.ret } := by
  obtain ⟨_, _, ⟨u, r, _, hu, rfl⟩ | ⟨u, r, _, hu, rfl⟩⟩ := ackSlot_cases h
  · rw [wstep_frame hu]; rfl
  · rw [rstep_frame hu]; rfl

/-! ### The table of R46 -/

/-- Settles O10: a marked state and a fault leave at most the mark, and each body keeps to its row. -/
theorem operationFrames : Obligations.OperationFrames := by
  intro i s t h
  rcases invoke_cases ((exec_eq_invoke i s).symm.trans h) with ⟨_, rfl⟩ | ⟨_, hb⟩ | ⟨_, f, _, rfl⟩
  · exact .inl rfl
  · right
    cases i with
    | beginBus =>
      obtain ⟨u, hu, rfl⟩ := bind_returning_ok_iff.1 hb
      obtain ⟨_, _, rfl⟩ := (beginLines_ok_iff _ _).1 hu
      rfl
    | start =>
      obtain ⟨_, _, u, hu, rfl⟩ := guard_bind_returning_ok_iff.1 hb
      obtain ⟨_, rfl⟩ := (startCondition_ok_iff _ _).1 hu
      rfl
    | stop =>
      obtain ⟨_, _, u, hu, rfl⟩ := guard_bind_returning_ok_iff.1 hb
      obtain ⟨_, rfl⟩ := (stopCondition_ok_iff _ _).1 hu
      rfl
    | wload byte succ err =>
      obtain ⟨_, _, u, hu, rfl⟩ := guard_bind_returning_ok_iff.1 hb
      obtain ⟨_, rfl⟩ := (wload_ok_iff _ _ _ _ _).1 hu
      rfl
    | wstep =>
      obtain ⟨_, _, ⟨u, r⟩, hu, rfl⟩ := guard_bind_returning_ok_iff.1 hb
      exact congrArg (State.returning · (.wstep r)) (wstep_frame hu)
    | rload nack succ =>
      obtain ⟨_, _, u, hu, rfl⟩ := guard_bind_returning_ok_iff.1 hb
      obtain ⟨_, rfl⟩ := (rload_ok_iff _ _ _ _).1 hu
      rfl
    | rstep =>
      obtain ⟨_, _, ⟨u, r⟩, hu, rfl⟩ := guard_bind_returning_ok_iff.1 hb
      exact congrArg (State.returning · (.rstep r)) (rstep_frame hu)
    | astart =>
      obtain ⟨u, hu, rfl⟩ := bind_returning_ok_iff.1 hb
      obtain ⟨_, _, _, _, rfl⟩ := (astart_ok_iff _ _).1 hu
      rfl
    | seqstep =>
      obtain ⟨⟨u, r⟩, hu, rfl⟩ := bind_returning_ok_iff.1 hb
      obtain ⟨hh, hres⟩ := seqMoves_sameHost (seqstep_seqMoves hu)
      have hf := congrArg (State.returning · (.seqstep r)) hh.frame
      rw [hres] at hf
      exact hf
    | compensate =>
      obtain ⟨u, hu, rfl⟩ := bind_returning_ok_iff.1 hb
      obtain ⟨_, _, _, _, rfl⟩ := (compensate_ok_iff _ _).1 hu
      rfl
    | acquire =>
      obtain ⟨u, hu, rfl⟩ := bind_returning_ok_iff.1 hb
      exact congrArg (State.returning · (.result u.result)) (acquireOp_sameHost hu).frame
    | addrW | addrR | regSelect | cmdTemp | cmdPres => exact sendByte_frame hb
    | data => exact receiveByte_frame hb
    | ack | nack => exact ackSlot_frame hb
  · exact .inl rfl

end Sys2Proof.Machine
end

/-! PROOFS. The reference sensor writes its registers at the end of a data byte alone, in canonical form (R60, R286). -/
section
namespace Sys2Proof.Machine

/-! ### What a register write keeps -/

/-- A register address is a byte, so it is within the 256 of R60. -/
theorem memWrite_wf {m : Memory} (a v : Byte) (hm : m.wf = true) : (memWrite m a v).wf = true :=
  Memory.write_wf v a.isLt hm

theorem Sensor.convert_wf (sn : Sensor) {m : Memory} (v : Byte) (hm : m.wf = true) : (sn.convert m v).wf = true := by
  unfold Sensor.convert
  split
  · exact memWrite_wf _ _ (memWrite_wf _ _ hm)
  · split
    · exact memWrite_wf _ _ (memWrite_wf _ _ (memWrite_wf _ _ hm))
    · exact hm

theorem Sensor.writeReg_wf (sn : Sensor) {m : Memory} (a v : Byte) (hm : m.wf = true) :
    (sn.writeReg m a v).wf = true := by
  unfold Sensor.writeReg
  split
  · exact sn.convert_wf v (memWrite_wf a v hm)
  · exact memWrite_wf a v hm

/-! ### Which events write a register -/

@[simp] theorem SensorBus.nextByte_regs (b : SensorBus) : b.nextByte.regs = b.regs := by
  unfold SensorBus.nextByte
  cases b.mode with
  | silent | receive | transmit => rfl
  | address => dsimp only; split <;> rfl

@[simp] theorem SensorBus.clockRise_regs (b : SensorBus) : b.clockRise.regs = b.regs := by
  unfold SensorBus.clockRise
  cases b.mode with
  | silent => rfl
  | address | receive | transmit => dsimp only; split <;> rfl

@[simp] theorem SensorBus.dataChange_regs (b : SensorBus) (v : Bit) : (b.dataChange v).regs = b.regs := by
  unfold SensorBus.dataChange
  split
  · rfl
  · split <;> rfl

/-- A whole byte writes a register exactly if it is a data byte of a write transaction. -/
theorem Sensor.gotByte_regs (sn : Sensor) (b : SensorBus) :
    (sn.gotByte b).regs = if b.mode = .receive false then sn.writeReg b.regs b.ptr b.shift else b.regs := by
  unfold Sensor.gotByte
  cases b.mode with
  | silent | transmit => rfl
  | address => dsimp only; split <;> rfl
  | receive pointerNext => cases pointerNext <;> rfl

/-- A falling clock writes a register exactly if it ends the eighth pulse of a data byte. -/
theorem Sensor.clockFall_regs (sn : Sensor) (b : SensorBus) :
    (sn.clockFall b).regs =
      if b.pulse = 8 ∧ b.mode = .receive false then sn.writeReg b.regs b.ptr b.shift else b.regs := by
  unfold Sensor.clockFall
  by_cases h8 : b.pulse = 8
  · simp [h8, Sensor.gotByte_regs]
  · simp only [h8, if_false, false_and]
    split
    · simp
    · cases b.mode with
      | silent | address | receive => rfl
      | transmit => dsimp only; split <;> rfl

/-- One event leaves the registers or writes the received byte to the register the pointer names. -/
theorem Sensor.observe_regs_cases (sn : Sensor) (b : SensorBus) (e : BusEvent) :
    (sn.observe b e).regs = b.regs
      ∨ (e = .scl false ∧ b.scl = true ∧ b.pulse = 8 ∧ b.mode = .receive false
        ∧ (sn.observe b e).regs = sn.writeReg b.regs b.ptr b.shift) := by
  cases e with
  | half | sample | sleepT1 | sleepT2 => exact .inl rfl
  | sda v => exact .inl (b.dataChange_regs v)
  | scl v =>
    by_cases hs : b.scl = true
    · cases v with
      | true => simp [Sensor.observe, hs]
      | false =>
        by_cases hw : b.pulse = 8 ∧ b.mode = .receive false
        · exact .inr ⟨rfl, hs, hw.1, hw.2, by simp [Sensor.observe, hs, Sensor.clockFall_regs, hw]⟩
        · exact .inl (by simp [Sensor.observe, hs, Sensor.clockFall_regs, hw])
    · cases v <;> simp [Sensor.observe, hs]

theorem Sensor.observe_regs_wf (sn : Sensor) {b : SensorBus} (e : BusEvent) (hb : b.regs.wf = true) :
    (sn.observe b e).regs.wf = true := by
  rcases sn.observe_regs_cases b e with h | ⟨_, _, _, _, h⟩
  · rw [h]; exact hb
  · rw [h]; exact sn.writeReg_wf b.ptr b.shift hb

/-- Settles O59: the sensor starts with the registers it was given, and each event of the trace keeps their form. -/
theorem sensorRegistersCanonical : Obligations.SensorRegistersCanonical :=
  fun sn trace hm =>
    List.foldlRecOn (motive := fun b => b.regs.wf = true) trace sn.observe hm fun _ hb e _ => sn.observe_regs_wf e hb

end Sys2Proof.Machine
end

/-! PROOFS. The decoder reads an operation word by its opcode, and its operands by their fields (R86, R90 to R93, R96). -/
section
namespace Sys2Proof

/-! ### A word and its fields -/

theorem kField_toNat (w : BitVec 24) : (kField w).toNat = w.toNat / 2 ^ 8 % 2 := Nat.toNat_testBit _ _

theorem kField_opWord (opc succ err : BitVec 4) (k : Bool) (imm : Byte) : kField (opWord opc succ err k imm) = k := by
  have himm := imm.isLt
  have hk := k.toNat_lt
  have h : (kField (opWord opc succ err k imm)).toNat = k.toNat := by
    rw [kField_toNat, opWord_toNat]
    omega
  calc kField (opWord opc succ err k imm)
    _ = Bool.ofNat (kField (opWord opc succ err k imm)).toNat := (Bool.ofNat_toNat _).symm
    _ = k := by rw [h, Bool.ofNat_toNat]

/-- A word whose three reserved bits are 0 is assembled from its own fields (R90). -/
theorem opWord_fields {w : BitVec 24} (h : w.toNat / 2 ^ 9 % 2 ^ 3 = 0) :
    opWord (opcField w) (succField w) (errField w) (kField w) (immField w) = w := by
  apply BitVec.eq_of_toNat_eq
  have hw := w.isLt
  simp only [opWord_toNat, kField_toNat, opcField, succField, errField, immField, BitVec.extractLsb'_toNat,
    Nat.shiftRight_eq_div_pow]
  omega

/-- Bits that are 0, as a fact about the word's number. -/
theorem extractLsb'_eq_zero_iff (w : BitVec 24) (start len : Nat) :
    w.extractLsb' start len = 0 ↔ w.toNat / 2 ^ start % 2 ^ len = 0 := by
  rw [← BitVec.toNat_inj, BitVec.extractLsb'_toNat, Nat.shiftRight_eq_div_pow]
  simp

/-! ### The operations without operands (R93) -/

/-- The operation of an opcode that takes no operands; `decodeOp_operandless` ties it to the decoder. -/
def operandless (opc : BitVec 4) : Option Instr :=
  match opc.toNat with
  | 0x1 => some .beginBus
  | 0x2 => some .start
  | 0x3 => some .stop
  | 0x5 => some .wstep
  | 0x7 => some .rstep
  | 0x8 => some .astart
  | 0x9 => some .seqstep
  | 0xA => some .compensate
  | 0xB => some .acquire
  | _ => none

theorem operandless_isSome_iff (opc : BitVec 4) :
    (operandless opc).isSome ↔ opc.toNat ∈ [1, 2, 3, 5, 7, 8, 9, 10, 11] := by
  revert opc
  decide

/-- An opcode takes no operands, is WLOAD's or RLOAD's, or is reserved (R90, R96). -/
theorem opcode_cases (opc : BitVec 4) :
    opc.toNat ∈ [1, 2, 3, 5, 7, 8, 9, 10, 11] ∨ opc.toNat = 4 ∨ opc.toNat = 6 ∨ opc.toNat ∈ [0, 12, 13, 14, 15] := by
  revert opc
  decide

theorem decodeOp_operandless {w : BitVec 24} {i : Instr} (h : operandless (opcField w) = some i) :
    decodeOp w = decodePlain w i := by
  unfold operandless at h
  unfold decodeOp
  split at h <;> simp_all

theorem decodeOp_wload {w : BitVec 24} (h : (opcField w).toNat = 4) : decodeOp w = decodeWload w := by
  simp [decodeOp, h]

theorem decodeOp_rload {w : BitVec 24} (h : (opcField w).toNat = 6) : decodeOp w = decodeRload w := by
  simp [decodeOp, h]

theorem decodeOp_reserved {w : BitVec 24} (h : (opcField w).toNat ∈ [0, 12, 13, 14, 15]) :
    decodeOp w = .error .reservedOpcode := by
  simp only [List.mem_cons, List.not_mem_nil, or_false] at h
  unfold decodeOp
  rcases h with h | h | h | h | h <;> simp [h]

theorem encode_of_operandless {opc : BitVec 4} {i : Instr} (h : operandless opc = some i) :
    encode i = .opw24 (plainWord opc) := by
  have hall : ∀ opc : BitVec 4, (operandless opc).all (fun i => encode i = .opw24 (plainWord opc)) = true := by decide
  simpa [h] using hall opc

/-! ### What each operand layout decodes to -/

theorem decodePlain_ok_iff (w : BitVec 24) (i j : Instr) :
    decodePlain w i = .ok j ↔ w.extractLsb' 0 20 = 0 ∧ j = i := by
  unfold decodePlain
  split <;> simp_all [eq_comm]

theorem phaseOfCode_eq_some_iff (c : BitVec 4) (p : Phase) : phaseOfCode c = some p ↔ c = p.code :=
  ⟨fun h => (code_of_phaseOfCode h).symm, fun h => h ▸ phaseOfCode_code p⟩

theorem decodeWload_ok_iff (w : BitVec 24) (i : Instr) :
    decodeWload w = .ok i ↔ w.extractLsb' 8 4 = 0 ∧
      ∃ succ err, succField w = Phase.code succ ∧ errField w = Phase.code err ∧ i = .wload (immField w) succ err := by
  simp only [← phaseOfCode_eq_some_iff]
  unfold decodeWload
  split
  · next h => exact ⟨nofun, fun hi => absurd hi.1 h⟩
  · next h =>
    rw [not_not] at h
    cases hs : phaseOfCode (succField w) <;> cases he : phaseOfCode (errField w) <;> simp [h, eq_comm]

theorem decodeRload_ok_iff (w : BitVec 24) (i : Instr) :
    decodeRload w = .ok i ↔ w.extractLsb' 9 7 = 0 ∧ immField w = 0 ∧
      ∃ succ, succField w = Phase.code succ ∧ i = .rload (kField w) succ := by
  simp only [← phaseOfCode_eq_some_iff]
  unfold decodeRload
  split
  · next h =>
    rw [← not_and_or] at h
    exact ⟨nofun, fun ⟨hres, himm, _⟩ => absurd ⟨hres, himm⟩ h⟩
  · next h =>
    rw [← not_and_or, not_not] at h
    cases hs : phaseOfCode (succField w) <;> simp [h, eq_comm]

/-! ### Decoding and encoding an operation word -/

theorem plainWord_of_low_zero {w : BitVec 24} (h : w.extractLsb' 0 20 = 0) : plainWord (opcField w) = w := by
  rw [extractLsb'_eq_zero_iff] at h
  have hw := w.isLt
  apply BitVec.eq_of_toNat_eq
  rw [plainWord, opWord_toNat]
  simp only [opcField, BitVec.extractLsb'_toNat, Nat.shiftRight_eq_div_pow]
  simp
  omega

/-- The word an operation is decoded from is its encoding. -/
theorem encode_of_decodeOp {w : BitVec 24} {i : Instr} (h : decodeOp w = .ok i) : encode i = .opw24 w := by
  rcases opcode_cases (opcField w) with hopc | hopc | hopc | hopc
  · obtain ⟨j, hj⟩ := Option.isSome_iff_exists.1 ((operandless_isSome_iff _).2 hopc)
    rw [decodeOp_operandless hj] at h
    obtain ⟨hlow, rfl⟩ := (decodePlain_ok_iff _ _ _).1 h
    rw [encode_of_operandless hj, plainWord_of_low_zero hlow]
  · rw [decodeOp_wload hopc] at h
    obtain ⟨hres, succ, err, hsucc, herr, rfl⟩ := (decodeWload_ok_iff _ _).1 h
    rw [extractLsb'_eq_zero_iff] at hres
    have hk : kField w = false := by
      have := kField_toNat w
      cases hk : kField w with
      | false => rfl
      | true => rw [hk] at this; simp at this; omega
    have hw : opWord (opcField w) (succField w) (errField w) (kField w) (immField w) = w := opWord_fields (by omega)
    rw [hsucc, herr, hk, show opcField w = 0x4 from BitVec.eq_of_toNat_eq hopc] at hw
    exact congrArg Word.opw24 hw
  · rw [decodeOp_rload hopc] at h
    obtain ⟨hres, himm, succ, hsucc, rfl⟩ := (decodeRload_ok_iff _ _).1 h
    rw [extractLsb'_eq_zero_iff] at hres
    have herr : errField w = 0 := (extractLsb'_eq_zero_iff _ _ _).2 (by omega)
    have hw : opWord (opcField w) (succField w) (errField w) (kField w) (immField w) = w := opWord_fields (by omega)
    rw [hsucc, herr, himm, show opcField w = 0x6 from BitVec.eq_of_toNat_eq hopc] at hw
    exact congrArg Word.opw24 hw
  · rw [decodeOp_reserved hopc] at h
    cases h

theorem decodeOp_encode_wload (byte : Byte) (succ err : Phase) :
    decodeOp (opWord 0x4 succ.code err.code false byte) = .ok (.wload byte succ err) := by
  rw [decodeOp_wload (by rw [opcField_opWord]; rfl), decodeWload_ok_iff, extractLsb'_eq_zero_iff, opWord_toNat,
    immField_opWord, succField_opWord, errField_opWord]
  have hbyte := byte.isLt
  refine ⟨?_, succ, err, rfl, rfl, rfl⟩
  simp
  omega

theorem decodeOp_encode_rload (sendNack : Bool) (succ : Phase) :
    decodeOp (opWord 0x6 succ.code 0 sendNack 0) = .ok (.rload sendNack succ) := by
  rw [decodeOp_rload (by rw [opcField_opWord]; rfl), decodeRload_ok_iff, extractLsb'_eq_zero_iff, opWord_toNat,
    immField_opWord, succField_opWord, kField_opWord]
  have hk := sendNack.toNat_lt
  refine ⟨?_, rfl, succ, rfl, rfl⟩
  simp
  omega

/-! ### Decoding and encoding a bus byte (R81, R83) -/

theorem addressByte_fields (b : Byte) : addressByte (b.extractLsb' 1 7) (b.getLsbD 0) = b := by
  revert b
  decide

theorem decodeBus_addressByte (a : BitVec 7) (rw : Bool) :
    decodeBus .address (addressByte a rw) = .ok (if rw then .addrR a else .addrW a) := by
  revert a
  cases rw <;> decide

theorem encode_of_decodeBus {pos : BytePos} {b : Byte} {i : Instr} (h : decodeBus pos b = .ok i) :
    encode i = .bus8 pos b := by
  cases pos with
  | address =>
    have hb := addressByte_fields b
    simp only [decodeBus] at h
    split at h <;> rename_i hrw <;> cases h <;> simp only [hrw] at hb
    · exact congrArg (Word.bus8 .address) hb
    · exact congrArg (Word.bus8 .address) hb
  | register | data => cases h; rfl
  | command =>
    have hall : ∀ b : Byte, (decodeCommand b).toOption.all (fun i => encode i = .bus8 .command b) = true := by decide
    simpa [show decodeCommand b = .ok i from h, Except.toOption] using hall b

theorem decode_encode (i : Instr) : decode (encode i) = .ok i := by
  cases i with
  | beginBus | start | stop | wstep | rstep | astart | seqstep | compensate | acquire => rfl
  | wload byte succ err => exact decodeOp_encode_wload byte succ err
  | rload sendNack succ => exact decodeOp_encode_rload sendNack succ
  | addrW a => exact decodeBus_addressByte a false
  | addrR a => exact decodeBus_addressByte a true
  | cmdPres o => revert o; decide
  | regSelect | cmdTemp | data | ack | nack => rfl

theorem encode_of_decode {x : Word} {i : Instr} (h : decode x = .ok i) : encode i = x := by
  cases x with
  | opw24 w => exact encode_of_decodeOp h
  | bus8 pos b => exact encode_of_decodeBus h
  | ack1 v => cases v <;> cases h <;> rfl

/-- Settles O1: every word decodes to the instruction it encodes, and every instruction's word decodes to it. -/
theorem decodeInvertsEncode : Obligations.DecodeInvertsEncode :=
  fun _ i => ⟨encode_of_decode, fun h => h ▸ decode_encode i⟩

end Sys2Proof
end

/-! PROOFS. Which operation words the decoder refuses, and the fields it reads (R86, R91 to R93, R96). -/
section
namespace Sys2Proof

/-! ### When a layout is refused -/

theorem exists_error_iff_not_ok {ε α : Type} (x : Except ε α) : (∃ e, x = .error e) ↔ ¬ ∃ a, x = .ok a := by
  cases x <;> simp

theorem exists_code_iff (c : BitVec 4) : (∃ p : Phase, c = p.code) ↔ ¬ 10 ≤ c.toNat := by
  simp only [← phaseOfCode_eq_some_iff, ← phaseOfCode_none_iff, ← Option.ne_none_iff_exists']

theorem decodePlain_error_iff (w : BitVec 24) (i : Instr) :
    (∃ e, decodePlain w i = .error e) ↔ w.extractLsb' 0 20 ≠ 0 := by
  simp [exists_error_iff_not_ok, decodePlain_ok_iff]

theorem decodeWload_error_iff (w : BitVec 24) :
    (∃ e, decodeWload w = .error e) ↔
      w.extractLsb' 8 4 ≠ 0 ∨ 10 ≤ (succField w).toNat ∨ 10 ≤ (errField w).toNat := by
  rw [← not_iff_not, exists_error_iff_not_ok, not_not, not_or, not_or, not_not, ← exists_code_iff, ← exists_code_iff]
  simp only [decodeWload_ok_iff]
  constructor
  · rintro ⟨_, hres, succ, err, hs, he, _⟩
    exact ⟨hres, ⟨succ, hs⟩, err, he⟩
  · rintro ⟨hres, ⟨succ, hs⟩, err, he⟩
    exact ⟨_, hres, succ, err, hs, he, rfl⟩

theorem decodeRload_error_iff (w : BitVec 24) :
    (∃ e, decodeRload w = .error e) ↔
      (w.extractLsb' 9 7 ≠ 0 ∨ immField w ≠ 0) ∨ 10 ≤ (succField w).toNat := by
  rw [← not_iff_not, exists_error_iff_not_ok, not_not, not_or, not_or, not_not, not_not, ← exists_code_iff]
  simp only [decodeRload_ok_iff]
  constructor
  · rintro ⟨_, hres, himm, succ, hs, _⟩
    exact ⟨⟨hres, himm⟩, succ, hs⟩
  · rintro ⟨⟨hres, himm⟩, succ, hs⟩
    exact ⟨_, hres, himm, succ, hs, rfl⟩

/-- A reserved code in a phase field is a bit that an operation without operands requires to be 0. -/
theorem low_ne_zero_of_reserved_phase {w : BitVec 24} (h : 10 ≤ (succField w).toNat ∨ 10 ≤ (errField w).toNat) :
    w.extractLsb' 0 20 ≠ 0 := by
  rw [Ne, extractLsb'_eq_zero_iff]
  simp only [succField, errField, BitVec.extractLsb'_toNat, Nat.shiftRight_eq_div_pow] at h
  omega

/-- A reserved code in `err`'s place is a bit that RLOAD requires to be 0. -/
theorem rload_bits_of_reserved_err {w : BitVec 24} (h : 10 ≤ (errField w).toNat) : w.extractLsb' 9 7 ≠ 0 := by
  rw [Ne, extractLsb'_eq_zero_iff]
  simp only [errField, BitVec.extractLsb'_toNat, Nat.shiftRight_eq_div_pow] at h
  omega

theorem decodeOp_operandless_error_iff {w : BitVec 24} (h : (opcField w).toNat ∈ [1, 2, 3, 5, 7, 8, 9, 10, 11]) :
    (∃ e, decodeOp w = .error e) ↔ w.extractLsb' 0 20 ≠ 0 := by
  obtain ⟨i, hi⟩ := Option.isSome_iff_exists.1 ((operandless_isSome_iff _).2 h)
  rw [decodeOp_operandless hi, decodePlain_error_iff]

/-! ### The obligations -/

/-- Settles O4: by the opcode's kind, a layout is refused for its reserved bits and its phase fields alone. -/
theorem refusedWordsExactly : Obligations.RefusedWordsExactly := by
  intro w
  change (∃ e, decodeOp w = .error e) ↔ (opcField w).toNat ∈ [0, 12, 13, 14, 15]
    ∨ ((opcField w).toNat ∈ [1, 2, 3, 5, 7, 8, 9, 10, 11] ∧ w.extractLsb' 0 20 ≠ 0)
    ∨ ((opcField w).toNat = 4 ∧ w.extractLsb' 8 4 ≠ 0)
    ∨ ((opcField w).toNat = 6 ∧ (w.extractLsb' 9 7 ≠ 0 ∨ immField w ≠ 0))
    ∨ 10 ≤ (succField w).toNat ∨ 10 ≤ (errField w).toNat
  rcases opcode_cases (opcField w) with h | h | h | h
  · have hres : (opcField w).toNat ∉ [0, 12, 13, 14, 15] := fun h' => by simp at h h'; omega
    have h4 : (opcField w).toNat ≠ 4 := fun h' => by simp [h'] at h
    have h6 : (opcField w).toNat ≠ 6 := fun h' => by simp [h'] at h
    have hphase := low_ne_zero_of_reserved_phase (w := w)
    rw [decodeOp_operandless_error_iff h]
    tauto
  · rw [decodeOp_wload h, decodeWload_error_iff, h]
    simp
  · have herr := rload_bits_of_reserved_err (w := w)
    rw [decodeOp_rload h, decodeRload_error_iff, h]
    simp
    tauto
  · exact iff_of_true ⟨_, decodeOp_reserved h⟩ (.inl h)

/-- Settles O2: each listed word has its opcode and low bits 0, and any other low bits are refused. -/
theorem operandlessWords : Obligations.OperandlessWords :=
  ⟨⟨rfl, rfl, rfl, rfl, rfl, rfl, rfl, rfl, rfl⟩, fun _ hopc hlow => (decodeOp_operandless_error_iff hopc).2 hlow⟩

theorem kField_eq_true_iff (w : BitVec 24) : kField w = true ↔ w.extractLsb' 8 1 = 1 := by
  have hk := kField_toNat w
  rw [← BitVec.toNat_inj, BitVec.extractLsb'_toNat, Nat.shiftRight_eq_div_pow]
  cases h : kField w <;> rw [h] at hk <;> simp at hk ⊢ <;> omega

theorem decodeOp_wload_fields {w : BitVec 24} (h : (opcField w).toNat = 4) (byte : Byte) (succ err : Phase) :
    decodeOp w = .ok (.wload byte succ err) ↔
      immField w = byte ∧ succField w = succ.code ∧ errField w = err.code ∧ w.extractLsb' 8 4 = 0 := by
  rw [decodeOp_wload h, decodeWload_ok_iff]
  constructor
  · rintro ⟨hres, succ', err', hs, he, hi⟩
    cases hi
    exact ⟨rfl, hs, he, hres⟩
  · rintro ⟨rfl, hs, he, hres⟩
    exact ⟨hres, succ, err, hs, he, rfl⟩

theorem decodeOp_rload_fields {w : BitVec 24} (h : (opcField w).toNat = 6) (sendNack : Bool) (succ : Phase) :
    decodeOp w = .ok (.rload sendNack succ) ↔
      (sendNack = true ↔ w.extractLsb' 8 1 = 1) ∧ succField w = succ.code ∧ w.extractLsb' 9 7 = 0
        ∧ immField w = 0 := by
  rw [decodeOp_rload h, decodeRload_ok_iff, ← kField_eq_true_iff, ← Bool.eq_iff_iff]
  constructor
  · rintro ⟨hres, himm, succ', hs, hi⟩
    cases hi
    exact ⟨rfl, hs, hres, himm⟩
  · rintro ⟨rfl, hs, hres, himm⟩
    exact ⟨hres, himm, succ, hs, rfl⟩

/-- Settles O3: the decoder's field functions are the bits the rules name. -/
theorem operandFields : Obligations.OperandFields :=
  ⟨fun _ byte succ err h => decodeOp_wload_fields h byte succ err,
    fun _ sendNack succ h => decodeOp_rload_fields h sendNack succ,
    ⟨rfl, rfl, rfl, rfl, rfl, rfl, rfl, rfl, rfl, rfl⟩, fun c => (phaseOfCode_none_iff c).2,
    decodeOp_encode_wload 0xEE .registerSelect .stopFail, decodeOp_encode_rload true .stop,
    decodeOp_encode_rload false .read⟩

/-- Settles O5: each word is the encoding of its row. -/
theorem busPatternSamples : Obligations.BusPatternSamples :=
  ⟨decode_encode (.addrW 0x77), decode_encode (.addrR 0x77), decode_encode (.regSelect 0xD0), decode_encode .cmdTemp,
    decode_encode (.cmdPres 0), decode_encode (.cmdPres 3), decode_encode (.data 0x55), decode_encode .ack,
    decode_encode .nack⟩

end Sys2Proof
end

/-! PROOFS. No procedure reads the value that the last operation returned (R95; log 11). -/
section
namespace Sys2Proof.Machine

/-- A body run from a state that differs in `ret` alone leaves a state that differs in `ret` alone. -/
def IgnoresRet (f : State → Except Fault State) : Prop :=
  ∀ s v, f (s.returning v) = (f s).map (·.returning v)

/-- The same of a step that returns a value besides. -/
def StepIgnoresRet {α : Type} (f : State → Except Fault (State × α)) : Prop :=
  ∀ s v, f (s.returning v) = (f s).map fun p => (p.1.returning v, p.2)

theorem wload_ignoresRet (byte : Byte) (succ err : Phase) : IgnoresRet (wload byte succ err) := by
  intro s v
  unfold wload
  rw [show (s.returning v).engineIdle = s.engineIdle from rfl]
  cases s.engineIdle <;> rfl

theorem wstep_ignoresRet : StepIgnoresRet wstep := by
  intro s v
  unfold wstep
  rw [show (s.returning v).w = s.w from rfl]
  cases s.w.state with
  | idle | ackCheck => rfl
  | shift => by_cases hn : s.w.bits = 0 <;> simp only [hn, if_true, if_false] <;> rfl

theorem rload_ignoresRet (nack : Bool) (succ : Phase) : IgnoresRet (rload nack succ) := by
  intro s v
  unfold rload
  rw [show (s.returning v).engineIdle = s.engineIdle from rfl]
  cases s.engineIdle <;> rfl

theorem rstep_ignoresRet : StepIgnoresRet rstep := by
  intro s v
  unfold rstep
  rw [show (s.returning v).r = s.r from rfl]
  cases s.r.state <;> rfl

theorem StepIgnoresRet.ok {α : Type} {f : State → Except Fault (State × α)} (hf : StepIgnoresRet f) {s t : State}
    {r : α} (h : f s = .ok (t, r)) (v : Ret) : f (s.returning v) = .ok (t.returning v, r) := by
  rw [hf, h]
  rfl

/-! ### The Sequencer -/

/-- Where the rest of a body turns a change of its argument into a change of its answer, so does the whole. -/
theorem map_bind_eq {α β : Type} {g : α → α} {k : β → β} {f f' : α → Except Fault β} (x : Except Fault α)
    (h : ∀ a, f' (g a) = (f a).map k) : (x.map g >>= f') = (x >>= f).map k := by
  cases x with
  | error => rfl
  | ok a => exact h a

theorem startCondition_ignoresRet : IgnoresRet startCondition := by
  intro s v
  unfold startCondition
  rw [show (s.returning v).engineIdle = s.engineIdle from rfl]
  cases s.engineIdle <;> rfl

theorem stopCondition_ignoresRet : IgnoresRet stopCondition := by
  intro s v
  unfold stopCondition
  rw [show (s.returning v).engineIdle = s.engineIdle from rfl]
  cases s.engineIdle <;> rfl

theorem writePhase_ignoresRet (byte : Byte) (succ : Phase) : IgnoresRet (writePhase byte succ) := by
  intro s v
  have hrest (t : State) :
      (wstep (t.returning v) >>= fun p => pure (if p.2 = .nack then p.1.recordFail s.step s.phase else p.1))
      = (wstep t >>= fun p => pure (if p.2 = .nack then p.1.recordFail s.step s.phase else p.1)).map
        (·.returning v) := by
    rw [wstep_ignoresRet t v]
    refine map_bind_eq _ fun ⟨u, res⟩ => ?_
    cases res <;> rfl
  unfold writePhase
  rw [show (s.returning v).w = s.w from rfl]
  by_cases hi : s.w.state = .idle
  · simp only [hi, if_true]
    rw [wload_ignoresRet]
    exact map_bind_eq _ hrest
  · simp only [hi, if_false]
    exact hrest s

theorem storeByte_ignoresRet : IgnoresRet storeByte := by
  intro s v
  unfold storeByte
  rw [show (s.returning v).buf = s.buf from rfl, show (s.returning v).idx = s.idx from rfl,
    show (s.returning v).r = s.r from rfl]
  cases s.buf.set s.idx.val s.r.byte <;> rfl

theorem phaseRead_ignoresRet (row : StepRow) : IgnoresRet (phaseRead row) := by
  intro s v
  have hrest (t : State) :
      (rstep (t.returning v) >>= fun p => if p.2 = .complete then storeByte p.1 else pure p.1)
      = (rstep t >>= fun p => if p.2 = .complete then storeByte p.1 else pure p.1).map (·.returning v) := by
    rw [rstep_ignoresRet t v]
    refine map_bind_eq _ fun ⟨u, res⟩ => ?_
    cases res with
    | inProgress => rfl
    | complete => exact storeByte_ignoresRet u v
  unfold phaseRead
  rw [show (s.returning v).r = s.r from rfl, show (s.returning v).idx = s.idx from rfl]
  by_cases hi : s.r.state = .idle
  · simp only [hi, if_true]
    rw [rload_ignoresRet]
    exact map_bind_eq _ hrest
  · simp only [hi, if_false]
    exact hrest s

theorem commit_ignoresRet (row : StepRow) : IgnoresRet (commit row) := by
  intro s v
  unfold commit
  rw [show (s.returning v).buf = s.buf from rfl, show (s.returning v).cfg = s.cfg from rfl,
    show (s.returning v).cal = s.cal from rfl]
  cases s.buf.b0 <;> cases s.buf.b1 <;> cases s.buf.b2 <;> (split <;> rfl)

theorem phaseStop_ignoresRet (row : StepRow) : IgnoresRet (phaseStop row) := by
  intro s v
  unfold phaseStop
  rw [stopCondition_ignoresRet s v, show (s.returning v).step = s.step from rfl]
  refine map_bind_eq _ fun t => ?_
  rw [commit_ignoresRet row t v]
  refine map_bind_eq _ fun u => ?_
  cases s.step.next <;> rfl

theorem phaseStart_ignoresRet : IgnoresRet phaseStart := by
  intro s v
  unfold phaseStart
  rw [startCondition_ignoresRet s v]
  exact map_bind_eq _ fun t => rfl

theorem phaseRestart_ignoresRet : IgnoresRet phaseRestart := by
  intro s v
  unfold phaseRestart
  rw [startCondition_ignoresRet s v]
  exact map_bind_eq _ fun t => rfl

theorem phaseStopFail_ignoresRet : IgnoresRet phaseStopFail := by
  intro s v
  unfold phaseStopFail
  rw [stopCondition_ignoresRet s v]
  exact map_bind_eq _ fun t => rfl

theorem waitStep_ignoresRet (sleep : BusEvent) : IgnoresRet (waitStep sleep) := by
  intro s v
  unfold waitStep
  rw [show (s.returning v).step = s.step from rfl]
  cases s.step.next <;> rfl

theorem phaseWriteData_ignoresRet (row : StepRow) : IgnoresRet (phaseWriteData row) := by
  cases row with
  | write reg cmd => exact writePhase_ignoresRet cmd .stop
  | read | wait => exact fun s v => rfl

theorem seqDispatch_ignoresRet (row : StepRow) : IgnoresRet (seqDispatch row) := by
  intro s v
  have hphase : (s.returning v).phase = s.phase := rfl
  cases row with
  | wait sleep => exact waitStep_ignoresRet sleep s v
  | read | write =>
    unfold seqDispatch
    rw [hphase]
    cases s.phase with
    | idle => rfl
    | start => exact phaseStart_ignoresRet s v
    | restart => exact phaseRestart_ignoresRet s v
    | addressW | registerSelect | addressR => exact writePhase_ignoresRet _ _ s v
    | writeData => exact phaseWriteData_ignoresRet _ s v
    | read => exact phaseRead_ignoresRet _ s v
    | stop => exact phaseStop_ignoresRet _ s v
    | stopFail => exact phaseStopFail_ignoresRet s v

theorem inconsistent_returning (row : StepRow) (s : State) (v : Ret) :
    inconsistent row (s.returning v) = inconsistent row s := rfl

theorem seqstep_ignoresRet : StepIgnoresRet seqstep := by
  intro s v
  unfold seqstep
  rw [show (s.returning v).begun = s.begun from rfl, show (s.returning v).cfg = s.cfg from rfl,
    show (s.returning v).step = s.step from rfl]
  cases s.begun with
  | false => rfl
  | true =>
    cases stepRow s.cfg s.step with
    | none => rfl
    | some row =>
      cases hi : inconsistent row s with
      | true =>
        simp only [inconsistent_returning, hi]
        rfl
      | false =>
        simp only [inconsistent_returning, hi, Bool.not_true, Bool.false_eq_true, if_false, seqDispatch_ignoresRet row s v]
        exact map_bind_eq _ fun t => rfl

end Sys2Proof.Machine
end

/-! PROOFS. A whole byte, bit step by bit step: the state after each of them (R142, R148, R162, R163). -/
section
namespace Sys2Proof.Machine

/-! ### Single steps of the sub-machines -/

theorem wstep_of_shift {s : State} (hs : s.w.state = .shift) (hn : s.w.bits ≠ 0) :
    wstep s = .ok (writeBit s, .inProgress) := by simp [wstep, hs, hn]

theorem wstep_of_check {s : State} (hs : s.w.state = .ackCheck ∨ (s.w.state = .shift ∧ s.w.bits = 0)) :
    wstep s = .ok (ackCheck s) := by
  rcases hs with hs | ⟨hs, hn⟩
  · simp [wstep, hs]
  · simp [wstep, hs, hn]

theorem rstep_of_reading {s : State} (hs : s.r.state = .reading) : rstep s = .ok (readBit s, .inProgress) := by
  simp [rstep, hs]

/-- The slot that answers a byte read, ACK or NACK as the load chose (R164, R165). -/
def answerWave (nack : Bool) : List BusEvent := if nack then sendNackWave else sendAckWave

/-- What the slot leaves (R164, R165); `rstep_of_slot` ties it to the machine. -/
def State.answered (s : State) (nack : Bool) : State :=
  { s with
    lines := ⟨some false, some true⟩
    trace := s.trace ++ answerWave nack
    r := { s.r with state := .idle }
    phase := s.r.succ }

/-- A read sub-machine in the slot the load chose drives it. -/
theorem rstep_of_slot {s : State} {nack : Bool} (hs : s.r.state = slotState nack) :
    rstep s = .ok (s.answered nack, .complete) := by
  cases nack with
  | false =>
    have hs : s.r.state = .sendAck := hs
    simp [rstep, hs, readSendAck_eq, State.answered, answerWave]
  | true =>
    have hs : s.r.state = .sendNack := hs
    simp [rstep, hs, readSendNack_eq, State.answered, answerWave]

/-! ### The bit counter -/

/-- A bit counter that started at 8, after `n` bits. -/
def bitsLeft (n : Nat) : Fin 9 := Fin.ofNat 9 (8 - n)

theorem bitsLeft_ne_zero {n : Nat} (hn : n < 8) : bitsLeft n ≠ 0 := by
  interval_cases n <;> decide

theorem countDown_bitsLeft {n : Nat} (hn : n < 8) : countDown (bitsLeft n) = bitsLeft (n + 1) := by
  interval_cases n <;> decide

theorem bitsLeft_eq_zero_iff {n : Nat} (hn : n ≤ 8) : bitsLeft n = 0 ↔ n = 8 := by
  interval_cases n <;> decide

/-! ### A byte sent -/

/-- A byte's `n` most significant bits on the wire. -/
def sentWave (byte : Byte) (n : Nat) : List BusEvent := ((wireBits byte).take n).flatMap writeBitWave

theorem sentWave_succ (byte : Byte) {n : Nat} (hn : n < 8) :
    sentWave byte (n + 1) = sentWave byte n ++ writeBitWave ((byte <<< n).getLsbD 7) := by
  interval_cases n <;> simp [sentWave, wireBits]

/-- The state after WLOAD and `n` bit steps, up to eight; `sent_zero` and `writeBit_sent` tie it to the machine. -/
def State.sent (s : State) (byte : Byte) (succ err : Phase) (n : Nat) : State :=
  { s with
    lines := (sentWave byte n).foldl Lines.after s.lines
    trace := s.trace ++ sentWave byte n
    w := ⟨if n = 8 then .ackCheck else .shift, byte <<< n, bitsLeft n, succ, err⟩ }

section
variable (s : State) (byte : Byte) (succ err : Phase)

theorem sent_zero : s.sent byte succ err 0 = { s with w := ⟨.shift, byte, 8, succ, err⟩ } := by
  simp [State.sent, sentWave, bitsLeft]

theorem sent_state {n : Nat} (hn : n < 8) : (s.sent byte succ err n).w.state = .shift := by
  simp [State.sent, hn.ne]

/-- A bit step sends the next bit of the byte. -/
theorem writeBit_sent {n : Nat} (hn : n < 8) : writeBit (s.sent byte succ err n) = s.sent byte succ err (n + 1) := by
  rw [writeBit_eq]
  simp only [State.sent, sentWave_succ byte hn, countDown_bitsLeft hn, bitsLeft_eq_zero_iff (Nat.succ_le_of_lt hn),
    List.foldl_append, List.append_assoc, Lines.after_writeBitWave, BitVec.shiftLeft_add]

theorem wstep_sent {n : Nat} (hn : n < 8) :
    wstep (s.sent byte succ err n) = .ok (s.sent byte succ err (n + 1), .inProgress) := by
  rw [wstep_of_shift (sent_state s byte succ err hn) (bitsLeft_ne_zero hn), writeBit_sent s byte succ err hn]

/-- A byte whole on the wire, before its acknowledge slot (R148). -/
theorem sent_eight :
    s.sent byte succ err 8 = { s with
      lines := ⟨some false, some (byte.getLsbD 0)⟩
      trace := s.trace ++ byteWave byte
      w := ⟨.ackCheck, 0, 0, succ, err⟩ } := by
  have hbyte : byte <<< 8 = 0 := by simp
  unfold State.sent
  rw [hbyte]
  rfl

/-- A byte whole on the wire with its acknowledgement sampled (R143). -/
theorem ackCheck_sent :
    (ackCheck (s.sent byte succ err 8)) = ({ s with
      lines := ⟨some false, some true⟩
      trace := s.trace ++ byteWave byte ++ ackSlotWave (ackDraw (s.sent byte succ err 8))
      env := s.env.advance
      lastAck := some (ackDraw (s.sent byte succ err 8))
      w := ⟨.idle, 0, 0, succ, err⟩
      phase := if ackDraw (s.sent byte succ err 8) then err else succ },
      ackReturn (ackDraw (s.sent byte succ err 8))) := by
  rw [ackCheck_eq]
  generalize ackDraw (s.sent byte succ err 8) = a
  rw [sent_eight]
  simp [ackSlotWave, WriteCtx.continuation]

end

/-! ### A byte received -/

/-- The state after RLOAD, with a read primed (R161). -/
def State.primed (s : State) (nack : Bool) (succ : Phase) : State := s.setR ⟨.priming, 0, 0, nack, succ⟩

/-- The state after the priming step of a loaded read and the bits `bs`, up to eight; `readPrime_eq_received` and
`readBit_received` tie it to the machine. -/
def State.received (s : State) (bs : List Bit) : State :=
  { s with
    lines := (BusEvent.sda true :: readWave bs).foldl Lines.after s.lines
    trace := s.trace ++ .sda true :: readWave bs
    env := { s.env with answers := s.env.answers.drop bs.length, drawn := s.env.drawn + bs.length }
    r := { s.r with
      state := if bs.length = 8 then slotState s.r.nack else .reading
      byte := bs.foldl shiftIn s.r.byte
      bits := bitsLeft bs.length } }

theorem readWave_append (bs cs : List Bit) : readWave (bs ++ cs) = readWave bs ++ readWave cs := List.flatMap_append

/-- Reading leaves the data line as it was. -/
theorem Lines.after_readWave_sda (l : Lines) (bs : List Bit) : ((readWave bs).foldl Lines.after l).sda = l.sda := by
  induction bs generalizing l with
  | nil => rfl
  | cons b bs ih => exact ih _

section
variable (s : State) {bs : List Bit}

theorem received_sda (bs : List Bit) : (s.received bs).lines.sda = some true :=
  Lines.after_readWave_sda _ bs

theorem readPrime_eq_received : readPrime s = s.received [] := by
  rw [readPrime_eq]
  rfl

theorem rstep_of_priming {s : State} (hs : s.r.state = .priming) : rstep s = .ok (s.received [], .inProgress) := by
  simp [rstep, hs, readPrime_eq_received]

theorem received_state (hn : bs.length < 8) : (s.received bs).r.state = .reading := by
  simp [State.received, hn.ne]

/-- A bit step takes in the bit it samples. -/
theorem readBit_received (hn : bs.length < 8) :
    readBit (s.received bs) = s.received (bs ++ [readDraw (s.received bs)]) := by
  have hcount : readCountAfter (s.received bs) = bitsLeft (bs.length + 1) :=
    (readCountAfter_of_ne (bitsLeft_ne_zero hn)).trans (countDown_bitsLeft hn)
  rw [readBit_eq, hcount]
  generalize readDraw (s.received bs) = b
  simp only [State.received, bitsLeft_eq_zero_iff (Nat.succ_le_of_lt hn), readWave_append, Env.advance, List.tail_drop,
    List.foldl_cons, List.foldl_append, List.length_append, List.append_assoc, List.cons_append]
  rfl

end

/-- The bits the next `n` bit steps of a loaded read sample. -/
def State.sampled (s : State) : Nat → List Bit
  | 0 => []
  | n + 1 => s.sampled n ++ [readDraw (s.received (s.sampled n))]

theorem sampled_length (s : State) (n : Nat) : (s.sampled n).length = n := by
  induction n with
  | zero => rfl
  | succ n ih => simp [State.sampled, ih]

/-- Line values that the environment has ready are the bits sampled (log 6). -/
theorem sampled_of_answers {s : State} {bs rest : List Bit} (h : s.env.answers = bs ++ rest) {n : Nat}
    (hn : n ≤ bs.length) : s.sampled n = bs.take n := by
  induction n with
  | zero => rfl
  | succ n ih =>
    have hdrop : (s.received (s.sampled n)).env.answers = bs[n] :: (bs.drop (n + 1) ++ rest) := by
      show s.env.answers.drop (s.sampled n).length = _
      rw [sampled_length, h, List.drop_append_of_le_length (by omega), List.drop_eq_getElem_cons (by omega)]
      rfl
    have hsda : (s.received (s.sampled n)).lines.sda ≠ some false := by simp [received_sda]
    rw [State.sampled, readDraw_of_answer hsda hdrop, ih (by omega), List.take_succ_eq_append_getElem]

theorem rstep_sampled (s : State) {n : Nat} (hn : n < 8) :
    rstep (s.received (s.sampled n)) = .ok (s.received (s.sampled (n + 1)), .inProgress) := by
  have hlen : (s.sampled n).length < 8 := (sampled_length s n).symm ▸ hn
  rw [rstep_of_reading (received_state s hlen), readBit_received s hlen]
  rfl

/-! ### Eight bits as a byte -/

theorem getLsbD_shiftIn (byte : Byte) (b : Bit) (i : Nat) :
    (shiftIn byte b).getLsbD i = if i = 0 then b else decide (i < 8) && byte.getLsbD (i - 1) := by
  by_cases hi : i = 0
  · simp [shiftIn, hi]
  · simp [shiftIn, hi, BitVec.getLsbD_shiftLeft, BitVec.getLsbD_setWidth, BitVec.getLsbD_ofBool]

/-- Eight bits shifted in leave nothing of the byte before, and are the byte's bits in wire order (R31, R63). -/
theorem wireBits_foldl_shiftIn (byte : Byte) {bs : List Bit} (h : bs.length = 8) :
    wireBits (bs.foldl shiftIn byte) = bs := by
  match bs, h with
  | [_, _, _, _, _, _, _, _], _ =>
    simp only [wireBits, List.foldl, getLsbD_shiftIn]
    rfl

theorem wireBits_injective {d e : Byte} (h : wireBits d = wireBits e) : d = e := by
  apply BitVec.eq_of_getLsbD_eq
  intro i hi
  simp only [wireBits, List.cons.injEq] at h
  interval_cases i <;> tauto

theorem foldl_shiftIn_wireBits (byte d : Byte) : (wireBits d).foldl shiftIn byte = d :=
  wireBits_injective (wireBits_foldl_shiftIn byte rfl)

/-- The bits of a byte received, as that byte. -/
theorem exists_byte_sampled (s : State) : ∃ d, s.sampled 8 = wireBits d :=
  ⟨_, (wireBits_foldl_shiftIn 0 (sampled_length s 8)).symm⟩

theorem sampled_of_byte {s : State} {d : Byte} {rest : List Bit} (h : s.env.answers = wireBits d ++ rest) :
    s.sampled 8 = wireBits d :=
  sampled_of_answers h (n := 8) le_rfl

/-- A byte whole in the shift register, before the slot that answers it (R163). -/
theorem received_wireBits (s : State) (d : Byte) :
    s.received (wireBits d) = { s with
      lines := ⟨some false, some true⟩
      trace := s.trace ++ .sda true :: readWave (wireBits d)
      env := { s.env with answers := s.env.answers.drop 8, drawn := s.env.drawn + 8 }
      r := { s.r with state := slotState s.r.nack, byte := d, bits := 0 } } := by
  unfold State.received
  rw [foldl_shiftIn_wireBits]
  rfl

/-- A byte received and answered (R164, R165). -/
theorem rstep_received (s : State) (d : Byte) :
    rstep (s.received (wireBits d)) = .ok ({ s with
      lines := ⟨some false, some true⟩
      trace := s.trace ++ (.sda true :: readWave (wireBits d) ++ answerWave s.r.nack)
      env := { s.env with answers := s.env.answers.drop 8, drawn := s.env.drawn + 8 }
      r := { s.r with state := .idle, byte := d, bits := 0 }
      phase := s.r.succ }, .complete) := by
  rw [rstep_of_slot (nack := s.r.nack) rfl, received_wireBits]
  simp [State.answered]

end Sys2Proof.Machine
end

/-! PROOFS. Instructions that move whole bytes and slots: WSTEP and RSTEP in a row, and the bus patterns (R81 to R85,
R147, R148, R167, R169). -/
section
namespace Sys2Proof.Machine

/-! ### Running an instruction -/

theorem exec_of_body_ok {i : Instr} {s t : State} (h : s.Clear) (hb : execBody i s = .ok t) : exec i s = .next t :=
  (exec_eq_invoke i s).trans (invoke_ok h hb)

theorem exec_of_body_error {i : Instr} {s : State} {f : Fault} (h : s.Clear) (hb : execBody i s = .error f) :
    exec i s = .next (s.raise f) :=
  (exec_eq_invoke i s).trans (invoke_error h hb)

/-- Where the host may act, the guard passes (R131). -/
theorem guard_bind {α : Type} {s : State} (h : s.HostMay) (f : Unit → Except Fault α) :
    (hostGuard s >>= f) = f () := by
  rw [hostGuard_ok h]
  rfl

theorem exec_wload {s : State} (h : s.Free) (byte : Byte) (succ err : Phase) :
    exec (.wload byte succ err) s = .next ((s.sent byte succ err 0).returning .nothing) := by
  obtain ⟨⟨hc, hb, hr⟩, he⟩ := h
  exact exec_of_body_ok hc (guard_bind_returning_ok_iff.2
    ⟨hb, hr, _, (wload_ok_iff _ _ _ _ _).2 ⟨he, sent_zero s byte succ err⟩, rfl⟩)

theorem exec_wstep {s t : State} {r : WReturn} (hw : wstep s = .ok (t, r)) (h : s.HostMay) (v : Ret) :
    exec .wstep (s.returning v) = .next (t.returning (.wstep r)) := by
  obtain ⟨hc, hb, hr⟩ := h
  exact exec_of_body_ok hc (guard_bind_returning_ok_iff.2 ⟨hb, hr, _, wstep_ignoresRet.ok hw v, rfl⟩)

theorem exec_rload {s : State} (h : s.Free) (sendNack : Bool) (succ : Phase) :
    exec (.rload sendNack succ) s = .next ((s.primed sendNack succ).returning .nothing) := by
  obtain ⟨⟨hc, hb, hr⟩, he⟩ := h
  exact exec_of_body_ok hc (guard_bind_returning_ok_iff.2 ⟨hb, hr, _, (rload_ok_iff _ _ _ _).2 ⟨he, rfl⟩, rfl⟩)

theorem exec_rstep {s t : State} {r : RReturn} (hr : rstep s = .ok (t, r)) (h : s.HostMay) (v : Ret) :
    exec .rstep (s.returning v) = .next (t.returning (.rstep r)) := by
  obtain ⟨hc, hb, hs⟩ := h
  exact exec_of_body_ok hc (guard_bind_returning_ok_iff.2 ⟨hb, hs, _, rstep_ignoresRet.ok hr v, rfl⟩)

/-! ### Running several -/

theorem execAll_append {is js : List Instr} {s t : State} (h : execAll is s = .next t) :
    execAll (is ++ js) s = execAll js t := by
  induction is generalizing s with
  | nil => cases h; rfl
  | cons i is ih =>
    obtain ⟨u, hu⟩ := exec_next i s
    simp only [execAll, List.cons_append, hu] at h ⊢
    exact ih h

theorem execAll_singleton (i : Instr) (s : State) : execAll [i] s = exec i s := by
  obtain ⟨t, ht⟩ := exec_next i s
  simp [execAll, ht]

theorem execAll_replicate_succ {i : Instr} {is : List Instr} {n : Nat} {s t : State}
    (h : execAll (is ++ List.replicate n i) s = .next t) :
    execAll (is ++ List.replicate (n + 1) i) s = exec i t := by
  rw [List.replicate_succ', ← List.append_assoc, execAll_append h, execAll_singleton]

/-! ### WRITE_BYTE and READ_BYTE -/

/-- WLOAD and up to eight WSTEPs (R141, R142). -/
theorem execAll_wload_wsteps {s : State} (h : s.Free) (byte : Byte) (succ err : Phase) {n : Nat} (hn : n ≤ 8) :
    execAll (.wload byte succ err :: List.replicate n .wstep) s =
      .next ((s.sent byte succ err n).returning (if n = 0 then .nothing else .wstep .inProgress)) := by
  induction n with
  | zero => exact (execAll_singleton _ _).trans (exec_wload h byte succ err)
  | succ n ih =>
    exact (execAll_replicate_succ (is := [.wload byte succ err]) (ih (by omega))).trans
      (exec_wstep (wstep_sent s byte succ err hn) h.1 _)

/-- Settles O29: eight bit steps put the byte on the wire, and the ninth WSTEP checks its acknowledgement. -/
theorem writeByteWhole : Obligations.WriteByteWhole := by
  intro s byte succ err h
  refine ⟨⟨ackDraw (s.sent byte succ err 8), fun b bs hb => ackDraw_of_answer hb, ?_⟩, fun n hn => ?_⟩
  · have hcheck : wstep (s.sent byte succ err 8) = .ok (ackCheck (s.sent byte succ err 8)) := wstep_of_check (.inl rfl)
    rw [ackCheck_sent] at hcheck
    exact (execAll_replicate_succ (is := [.wload byte succ err]) (execAll_wload_wsteps h byte succ err le_rfl)).trans
      (exec_wstep hcheck h.1 _)
  · exact ⟨_, execAll_wload_wsteps h byte succ err hn, rfl⟩

/-- RLOAD, the priming RSTEP and up to eight more (R161 to R163). -/
theorem execAll_rload_rsteps {s : State} (h : s.Free) (sendNack : Bool) (succ : Phase) {n : Nat} (hn : n ≤ 8) :
    execAll (.rload sendNack succ :: List.replicate (n + 1) .rstep) s =
      .next (((s.primed sendNack succ).received ((s.primed sendNack succ).sampled n)).returning
        (.rstep .inProgress)) := by
  have hload : execAll ([.rload sendNack succ] ++ List.replicate 0 .rstep) s = .next ((s.primed sendNack succ).returning .nothing) :=
    (execAll_singleton _ _).trans (exec_rload h sendNack succ)
  induction n with
  | zero =>
    exact (execAll_replicate_succ hload).trans
      (exec_rstep (rstep_of_priming (s := s.primed sendNack succ) rfl) h.1 _)
  | succ n ih =>
    exact (execAll_replicate_succ (is := [.rload sendNack succ]) (ih (by omega))).trans
      (exec_rstep (rstep_sampled (s.primed sendNack succ) hn) h.1 _)

/-- Settles O30: the bits that eight bit steps sample are a byte's, and the tenth RSTEP answers it. -/
theorem readByteWhole : Obligations.ReadByteWhole := by
  intro s sendNack succ h
  refine ⟨?_, fun n hn => ⟨_, execAll_rload_rsteps h sendNack succ (Nat.le_of_lt_succ hn), rfl⟩⟩
  have h8 := execAll_rload_rsteps h sendNack succ le_rfl
  obtain ⟨d, hd⟩ := exists_byte_sampled (s.primed sendNack succ)
  rw [hd] at h8
  refine ⟨d, fun e bs he => ?_, ?_⟩
  · exact wireBits_injective (hd.symm.trans (sampled_of_byte (s := s.primed sendNack succ) he))
  · have hslot := exec_rstep (rstep_received (s.primed sendNack succ) d) h.1 (.rstep .inProgress)
    rw [List.append_assoc, List.append_assoc]
    exact (execAll_replicate_succ (is := [.rload sendNack succ]) h8).trans hslot

/-! ### The bus patterns (log 4) -/

theorem wsteps_sent (s : State) (byte : Byte) (succ err : Phase) {n k : Nat} (hn : k + n ≤ 8) :
    wsteps n (s.sent byte succ err k) = .ok (s.sent byte succ err (k + n), .inProgress) := by
  induction n generalizing k with
  | zero => exact wsteps_zero _
  | succ n ih =>
    have hrest := ih (k := k + 1) (by omega)
    rw [show k + 1 + n = k + (n + 1) by omega] at hrest
    exact (wsteps_succ_ok_iff _ _ _ _).2 ⟨_, _, wstep_sent s byte succ err (by omega), hrest⟩

theorem rsteps_sampled (s : State) {n k : Nat} (hn : k + n ≤ 8) :
    rsteps n (s.received (s.sampled k)) = .ok (s.received (s.sampled (k + n)), .inProgress) := by
  induction n generalizing k with
  | zero => exact rsteps_zero _
  | succ n ih =>
    have hrest := ih (k := k + 1) (by omega)
    rw [show k + 1 + n = k + (n + 1) by omega] at hrest
    exact (rsteps_succ_ok_iff _ _ _ _).2 ⟨_, _, rstep_sampled s (by omega), hrest⟩

/-- What sending a byte leaves: the byte on the wire and its acknowledge check pending (R148). -/
theorem sendByte_ok {s : State} (h : s.Free) (byte : Byte) (succ : Phase) :
    sendByte byte succ s = .ok { s with
      lines := ⟨some false, some (byte.getLsbD 0)⟩
      trace := s.trace ++ byteWave byte
      w := ⟨.ackCheck, 0, 0, succ, .stopFail⟩
      ret := .wstep .inProgress } := by
  obtain ⟨⟨_, hb, hr⟩, he⟩ := h
  have hw := wsteps_sent s byte succ .stopFail (k := 0) (n := 8) le_rfl
  rw [sent_zero, Nat.zero_add, sent_eight] at hw
  exact (sendByte_ok_iff _ _ _ _).2 ⟨hb, hr, he, _, _, hw, rfl⟩

theorem addressByte_false (a : BitVec 7) : addressByte a false = BitVec.ofNat 8 (a.toNat * 2) := by
  revert a
  decide

theorem addressByte_true (a : BitVec 7) : addressByte a true = BitVec.ofNat 8 (a.toNat * 2 + 1) := by
  revert a
  decide

theorem presByte_eq (o : BitVec 2) : presByte o = BitVec.ofNat 8 (o.toNat * 64 + 0x34) := by
  revert o
  decide

/-- Settles O55: each byte row is a byte sent, with its own byte and continuation. -/
theorem bytePatternsSent : Obligations.BytePatternsSent := by
  intro s a r o h
  rw [← addressByte_false, ← addressByte_true, ← presByte_eq]
  exact ⟨exec_of_body_ok h.1.1 (sendByte_ok h _ _), exec_of_body_ok h.1.1 (sendByte_ok h _ _),
    exec_of_body_ok h.1.1 (sendByte_ok h _ _), exec_of_body_ok h.1.1 (sendByte_ok h _ _),
    exec_of_body_ok h.1.1 (sendByte_ok h _ _)⟩

/-- Settles O56: the priming step and eight bit steps take in the bits that the row puts first. -/
theorem dataPatternReceived : Obligations.DataPatternReceived := by
  intro s d h hp
  have hs : (s.answerNext (wireBits d)).sampled 8 = wireBits d := sampled_of_byte rfl
  have hbits := rsteps_sampled (s.answerNext (wireBits d)) (n := 8) (k := 0) le_rfl
  have hprime : rstep (s.answerNext (wireBits d)) = .ok ((s.answerNext (wireBits d)).received [], .inProgress) :=
    rstep_of_priming hp
  rw [Nat.zero_add, hs, received_wireBits] at hbits
  have hall := (rsteps_succ_ok_iff _ _ _ _).2 ⟨_, _, hprime, hbits⟩
  refine exec_of_body_ok h.1 ?_
  rw [List.append_assoc]
  simp only [execBody, receiveByte, guard_bind h, hp, if_true, hall]
  rfl

theorem ackSlot_of_check {s : State} (h : s.HostMay)
    (hw : s.w.state = .ackCheck ∨ (s.w.state = .shift ∧ s.w.bits = 0)) (v : Bit) :
    ackSlot v s = .ok { s with
      lines := ⟨some false, some true⟩
      trace := s.trace ++ ackSlotWave v
      env := { s.env with drawn := s.env.drawn + 1 }
      lastAck := some v
      w := { s.w with state := .idle }
      phase := s.w.continuation v
      ret := .wstep (ackReturn v) } := by
  have hdraw : ackDraw (s.answerNext [v]) = v := ackDraw_of_answer rfl
  have hstep : wstep (s.answerNext [v]) = .ok (ackCheck (s.answerNext [v])) := wstep_of_check hw
  rw [ackCheck_eq, hdraw] at hstep
  simp only [ackSlot, guard_bind h, hw, if_true, hstep]
  rfl

/-- A slot that is not an acknowledge check's and that the load chose. -/
theorem ackSlot_of_slot {s : State} (h : s.HostMay) (hw : s.w.state = .idle) {v : Bit} (hr : s.r.state = slotState v) :
    ackSlot v s = .ok ((s.answered v).returning (.rstep .complete)) := by
  have hcheck : ¬ (s.w.state = .ackCheck ∨ (s.w.state = .shift ∧ s.w.bits = 0)) := by simp [hw]
  simp only [ackSlot, guard_bind h, hcheck, if_false, hr, if_true, rstep_of_slot hr]
  rfl

/-- Settles O57: an acknowledge check samples the value the row puts first, and a read's slot is the one its load chose. -/
theorem ackSlotPatterns : Obligations.AckSlotPatterns := by
  intro s h
  refine ⟨fun hw => ⟨?_, ?_⟩, fun hw => ⟨fun hr => ?_, fun hr => ?_⟩⟩
  · exact exec_of_body_ok h.1 (ackSlot_of_check h hw false)
  · exact exec_of_body_ok h.1 (ackSlot_of_check h hw true)
  · exact exec_of_body_ok h.1 (ackSlot_of_slot h hw hr)
  · exact exec_of_body_ok h.1 (ackSlot_of_slot h hw hr)

/-! ### Misplaced patterns (log 17) -/

/-- The fault of a pattern with no place: nothing is loaded, or something else is under way. -/
def misplacedFault (s : State) : Fault := if s.engineIdle then .notLoaded else .engineBusy

theorem misplacedFault_of_idle {s : State} (h : s.EngineIdle) : misplacedFault s = .notLoaded :=
  if_pos (s.engineIdle_iff.2 h)

theorem misplacedFault_of_busy {s : State} (h : ¬ s.EngineIdle) : misplacedFault s = .engineBusy :=
  if_neg (mt s.engineIdle_iff.1 h)

theorem receiveByte_misplaced {s : State} (h : s.HostMay) (hr : s.r.state ≠ .priming) (d : Byte) :
    receiveByte d s = .error (misplacedFault s) := by
  simp only [receiveByte, guard_bind h, hr, if_false, misplacedFault]
  cases s.engineIdle <;> rfl

theorem ackSlot_misplaced {s : State} (h : s.HostMay)
    (hw : ¬ (s.w.state = .ackCheck ∨ (s.w.state = .shift ∧ s.w.bits = 0))) {v : Bit} (hr : s.r.state ≠ slotState v) :
    ackSlot v s = .error (misplacedFault s) := by
  simp only [ackSlot, guard_bind h, hw, hr, if_false, misplacedFault]
  cases s.engineIdle <;> rfl

theorem sendByte_busy {s : State} (h : s.HostMay) (he : ¬ s.EngineIdle) (byte : Byte) (succ : Phase) :
    sendByte byte succ s = .error .engineBusy := by
  rw [sendByte, guard_bind h]
  exact except_bind_error_iff.2 (.inl ((wload_error_iff _ _ _ _ _).2 ⟨he, rfl⟩))

/-- Settles O58: a pattern that the engine's state has no place for answers the fault of that state. -/
theorem misplacedPatternsFault : Obligations.MisplacedPatternsFault := by
  intro s a d o h
  refine ⟨fun he => ?_, fun he => ⟨fun i hi => ?_, fun hr => ?_, fun hck hsh => ⟨fun hr => ?_, fun hr => ?_⟩⟩⟩
  · have hdata := receiveByte_misplaced h (by simp [he.2]) d
    have hslot (v : Bit) := ackSlot_misplaced h (by simp [he.1]) (v := v) (by cases v <;> simp [he.2, slotState])
    rw [← misplacedFault_of_idle he]
    exact ⟨exec_of_body_error h.1 hdata, exec_of_body_error h.1 (hslot false), exec_of_body_error h.1 (hslot true)⟩
  · refine exec_of_body_error h.1 ?_
    simp only [List.mem_cons, List.not_mem_nil, or_false] at hi
    rcases hi with rfl | rfl | rfl | rfl | rfl <;> exact sendByte_busy h he _ _
  · rw [← misplacedFault_of_busy he]
    exact exec_of_body_error h.1 (receiveByte_misplaced h hr d)
  · rw [← misplacedFault_of_busy he]
    exact exec_of_body_error h.1 (ackSlot_misplaced h (by tauto) (v := false) hr)
  · rw [← misplacedFault_of_busy he]
    exact exec_of_body_error h.1 (ackSlot_misplaced h (by tauto) (v := true) hr)

/-- Settles O31: the chain by name is the definition of `Step.next`, and a successor's code is one more. -/
theorem stepOrder : Obligations.StepOrder :=
  ⟨⟨rfl, rfl, rfl, rfl, rfl, rfl, rfl, rfl, rfl, rfl, rfl, rfl, rfl, rfl, rfl, rfl, rfl, rfl, rfl⟩, rfl, rfl,
    fun _ _ h => next_rank h⟩

end Sys2Proof.Machine
end

/-! PROOFS. SEQSTEPs in a row (R184), and what a phase answers where it raises no fault. -/
section
namespace Sys2Proof.Machine

/-! ### One SEQSTEP -/

theorem seqstep_of_dispatch {row : StepRow} {s t : State} (hb : s.begun = true)
    (hrow : stepRow s.cfg s.step = some row) (hc : Consistent row s) (hd : seqDispatch row s = .ok t) :
    seqstep s = .ok (t, t.step.seqReturn) :=
  (seqstep_ok_iff _ _ _).2 ⟨hb, row, hrow, (inconsistent_eq_false_iff _ _).2 hc, hd, rfl⟩

theorem exec_seqstep {s t : State} {r : SeqReturn} (h : seqstep s = .ok (t, r)) (hc : s.Clear) (v : Ret) :
    exec .seqstep (s.returning v) = .next (t.returning (.seqstep r)) :=
  exec_of_body_ok hc (bind_returning_ok_iff.2 ⟨_, seqstep_ignoresRet.ok h v, rfl⟩)

theorem seqstep_sameHost {s t : State} {r : SeqReturn} (h : seqstep s = .ok (t, r)) : SameHost s t :=
  (seqMoves_sameHost (seqstep_seqMoves h)).1

theorem SameHost.clear {s t : State} (h : SameHost s t) (hc : s.Clear) : t.Clear :=
  ⟨h.fault.trans hc.1, h.refused.trans hc.2⟩

/-! ### A run of SEQSTEPs -/

/-- `n` SEQSTEPs lead from `s` to `t`, no return value stored, and `P` holds before each of them. -/
inductive SeqRun (P : State → Prop) : Nat → State → State → Prop
  | refl (s : State) : SeqRun P 0 s s
  | step {n : Nat} {s u t : State} {r : SeqReturn} (hP : P s) (h : seqstep s = .ok (u, r)) (hrun : SeqRun P n u t) :
      SeqRun P (n + 1) s t

theorem SeqRun.single {P : State → Prop} {s t : State} {r : SeqReturn} (hP : P s) (h : seqstep s = .ok (t, r)) :
    SeqRun P 1 s t :=
  .step hP h (.refl t)

theorem SeqRun.trans {P : State → Prop} {m n : Nat} {s t u : State} (h₁ : SeqRun P m s t) (h₂ : SeqRun P n t u) :
    SeqRun P (m + n) s u := by
  induction h₁ with
  | refl => rwa [Nat.zero_add]
  | step hP h _ ih => exact Nat.succ_add _ n ▸ .step hP h (ih h₂)

theorem SeqRun.sameHost {P : State → Prop} {n : Nat} {s t : State} (h : SeqRun P n s t) : SameHost s t := by
  induction h with
  | refl => exact .refl _
  | step _ h _ ih => exact (seqstep_sameHost h).trans ih

theorem seqsteps_succ {s t : State} (h : exec .seqstep s = .next t) (n : Nat) :
    seqsteps (n + 1) s = seqsteps n t := by
  simp [seqsteps, List.replicate_succ, execAll, h]

/-- The host's SEQSTEPs make the run's steps, and store a return value besides. -/
theorem SeqRun.seqsteps {P : State → Prop} {n : Nat} {s t : State} (h : SeqRun P n s t) (hc : s.Clear) (v : Ret) :
    (∃ v', seqsteps n (s.returning v) = .next (t.returning v')) ∧
      ∀ k < n, ∃ q v', Machine.seqsteps k (s.returning v) = .next (q.returning v') ∧ P q ∧ q.Clear := by
  induction h generalizing v with
  | refl s => exact ⟨⟨v, rfl⟩, nofun⟩
  | @step n s u t r hP h hrun ih =>
    have hexec := exec_seqstep h hc v
    obtain ⟨⟨v', hv'⟩, hbefore⟩ := ih ((seqstep_sameHost h).clear hc) (.seqstep r)
    refine ⟨⟨v', (seqsteps_succ hexec n).trans hv'⟩, fun k hk => ?_⟩
    cases k with
    | zero => exact ⟨s, v, rfl, hP, hc⟩
    | succ k =>
      obtain ⟨q, vq, hq, hPq, hcq⟩ := hbefore k (by omega)
      exact ⟨q, vq, (seqsteps_succ hexec k).trans hq, hPq, hcq⟩

/-! ### A phase that sends a byte -/

theorem writePhase_of_idle {s : State} (he : s.EngineIdle) (byte : Byte) (succ : Phase) :
    writePhase byte succ s = .ok (s.sent byte succ .stopFail 1) := by
  have hload : wload byte succ .stopFail s = .ok (s.sent byte succ .stopFail 0) :=
    (wload_ok_iff _ _ _ _ _).2 ⟨he, sent_zero s byte succ .stopFail⟩
  have hstep := wstep_sent s byte succ .stopFail (n := 0) (by decide)
  simp only [writePhase, he.1, if_true, hload]
  exact except_bind_ok_iff.2 ⟨_, rfl, except_bind_ok_iff.2 ⟨_, hstep, rfl⟩⟩

theorem writePhase_of_busy {s t : State} {r : WReturn} (hw : s.w.state ≠ .idle) (h : wstep s = .ok (t, r))
    (byte : Byte) (succ : Phase) :
    writePhase byte succ s = .ok (if r = .nack then t.recordFail s.step s.phase else t) := by
  simp only [writePhase, hw, if_false]
  exact except_bind_ok_iff.2 ⟨_, rfl, except_bind_ok_iff.2 ⟨_, h, rfl⟩⟩

/-! ### The phase READ -/

/-- The state in which the phase READ has primed a byte: the last is not acknowledged and continues in STOP (R192). -/
def State.primedFor (s : State) (row : StepRow) : State :=
  s.primed (decide (s.idx.val + 1 = row.count)) (if s.idx.val + 1 = row.count then .stop else .read)

theorem phaseRead_of_idle {row : StepRow} {s : State} (he : s.EngineIdle) :
    phaseRead row s = .ok ((s.primedFor row).received []) := by
  have hload : rload (decide (s.idx.val + 1 = row.count)) (if s.idx.val + 1 = row.count then .stop else .read) s
      = .ok (s.primedFor row) := (rload_ok_iff _ _ _ _).2 ⟨he, rfl⟩
  simp only [phaseRead, he.2, if_true, decide_eq_true_eq, hload]
  exact except_bind_ok_iff.2 ⟨_, rfl, except_bind_ok_iff.2 ⟨_, rstep_of_priming rfl, rfl⟩⟩

theorem phaseRead_of_busy {row : StepRow} {s t : State} {r : RReturn} (hr : s.r.state ≠ .idle)
    (h : rstep s = .ok (t, r)) : phaseRead row s = if r = .complete then storeByte t else .ok t := by
  have hrest : (rstep s >>= fun p => if p.2 = .complete then storeByte p.1 else pure p.1)
      = if r = .complete then storeByte t else .ok t := by rw [h]; rfl
  simp only [phaseRead, hr, if_false]
  exact hrest

theorem storeByte_of_set {s : State} {b : RxBuffer} (h : s.buf.set s.idx.val s.r.byte = some b) :
    storeByte s = .ok { s with buf := b, idx := s.idx + 1 } := by
  simp [storeByte, h]

/-! ### The phase STOP -/

/-- How many bytes a target is assembled from (R182, R194). -/
def Target.count : Target → Nat
  | .devId => 1
  | .cal _ => 2
  | .ut => 2
  | .up => 3

theorem count_of_target {c : Cfg} {st : Step} {reg : Byte} {n : Nat} {tg : Target}
    (h : stepRow c st = some (.read reg n tg)) : n = tg.count := by
  cases st <;> cases h <;> rfl

/-- A commit has the bytes it needs once a read step's buffer is filled (R194). -/
theorem commit_ok {row : StepRow} {c : Cfg} {st : Step} {s : State} (hrow : stepRow c st = some row)
    (hb : s.buf.filled row.count) : ∃ t, commit row s = .ok t := by
  cases row with
  | write | wait => exact ⟨s, rfl⟩
  | read reg n tg =>
    obtain ⟨h0, h1, h2⟩ := hb
    have hn : (StepRow.read reg n tg).count = tg.count := count_of_target hrow
    rw [hn] at h0 h1 h2
    cases tg with
    | devId =>
      obtain ⟨b0, hb0⟩ := Option.isSome_iff_exists.1 (h0 (by decide))
      simp [commit, hb0]
    | cal f =>
      obtain ⟨b0, hb0⟩ := Option.isSome_iff_exists.1 (h0 (show 0 < 2 by decide))
      obtain ⟨b1, hb1⟩ := Option.isSome_iff_exists.1 (h1 (show 1 < 2 by decide))
      simp [commit, hb0, hb1]
    | ut =>
      obtain ⟨b0, hb0⟩ := Option.isSome_iff_exists.1 (h0 (by decide))
      obtain ⟨b1, hb1⟩ := Option.isSome_iff_exists.1 (h1 (by decide))
      simp [commit, hb0, hb1]
    | up =>
      obtain ⟨b0, hb0⟩ := Option.isSome_iff_exists.1 (h0 (by decide))
      obtain ⟨b1, hb1⟩ := Option.isSome_iff_exists.1 (h1 (by decide))
      obtain ⟨b2, hb2⟩ := Option.isSome_iff_exists.1 (h2 (by decide))
      simp [commit, hb0, hb1, hb2]

/-- A commit writes the targets alone. -/
theorem commit_frame {row : StepRow} {s t : State} (h : commit row s = .ok t) :
    t = { s with devId := t.devId, cal := t.cal, ut := t.ut, up := t.up } := by
  rcases commit_cases h with ⟨_, rfl⟩ | ⟨_, _, _, _, _, rfl⟩ | ⟨_, _, _, _, _, _, _, _, rfl⟩ |
    ⟨_, _, _, _, _, _, _, rfl⟩ | ⟨_, _, _, _, _, _, _, _, _, rfl⟩ <;> rfl

/-- The state right after a stop condition (R128). -/
def State.stopped (s : State) : State := { s with lines := ⟨some true, some true⟩, trace := s.trace ++ stopWave }

theorem phaseStop_of_commit {row : StepRow} {s u : State} {nxt : Step} (he : s.EngineIdle)
    (hu : commit row s.stopped = .ok u) (hn : s.step.next = some nxt) :
    phaseStop row s = .ok (u.enter nxt (entryPhase nxt)) := by
  simp only [phaseStop, hn]
  exact except_bind_ok_iff.2 ⟨_, (stopCondition_ok_iff _ _).2 ⟨he, rfl⟩, except_bind_ok_iff.2 ⟨u, hu, rfl⟩⟩

/-! ### The dispatch, phase by phase (R184) -/

section
variable {row : StepRow} {s : State} (hwait : row.isWait = false)
include hwait

theorem seqDispatch_of_start (hp : s.phase = .start) : seqDispatch row s = phaseStart s := by
  cases row with
  | read | write => simp [seqDispatch, hp]
  | wait => cases hwait

theorem seqDispatch_of_restart (hp : s.phase = .restart) : seqDispatch row s = phaseRestart s := by
  cases row with
  | read | write => simp [seqDispatch, hp]
  | wait => cases hwait

theorem seqDispatch_of_read (hp : s.phase = .read) : seqDispatch row s = phaseRead row s := by
  cases row with
  | read | write => simp [seqDispatch, hp]
  | wait => cases hwait

theorem seqDispatch_of_stop (hp : s.phase = .stop) : seqDispatch row s = phaseStop row s := by
  cases row with
  | read | write => simp [seqDispatch, hp]
  | wait => cases hwait

theorem seqDispatch_of_stopFail (hp : s.phase = .stopFail) : seqDispatch row s = phaseStopFail s := by
  cases row with
  | read | write => simp [seqDispatch, hp]
  | wait => cases hwait

theorem seqDispatch_of_writeItem {byte : Byte} {succ : Phase} (hi : writeItem s.cfg row s.phase = some (byte, succ)) :
    seqDispatch row s = writePhase byte succ s := by
  cases row with
  | read | write =>
    cases hp : s.phase <;> rw [hp] at hi <;> cases hi <;> simp only [seqDispatch, hp] <;> rfl
  | wait => cases hwait

end

/-- The phases with a byte to send send bytes, and fit the row. -/
theorem writeItem_fits {c : Cfg} {row : StepRow} {p : Phase} {x : Byte × Phase} (h : writeItem c row p = some x) :
    isWritePhase p = true ∧ (p = .writeData → row.isWrite = true) ∧ (p = .addressR → row.isRead = true) := by
  cases p <;> cases row <;> cases h <;> simp [isWritePhase, StepRow.isWrite, StepRow.isRead]

/-- With the engine idle, the consistency check lets every byte of the row be sent. -/
theorem consistent_of_writeItem {row : StepRow} {s : State} {x : Byte × Phase} (hwait : row.isWait = false)
    (he : s.EngineIdle) (hi : writeItem s.cfg row s.phase = some x) : Consistent row s := by
  obtain ⟨hw, hcmd, hrd⟩ := writeItem_fits hi
  have hphase := (isWritePhase_iff _).1 hw
  refine consistent_of_engineIdle he hwait (fun hp => ?_) hcmd (fun hp => ?_) (fun hp => ?_)
  · simp [hp] at hphase
  · rcases hp with hp | hp | hp
    · simp [hp] at hphase
    · exact hrd hp
    · simp [hp] at hphase
  · simp [hp] at hphase

end Sys2Proof.Machine
end

/-! PROOFS. A whole transaction of the Sequencer, its slots acknowledged (R101, R197, R198). -/
section
namespace Sys2Proof.Machine

/-! ### Stages of a transaction -/

/-- `n` SEQSTEPs lead from `s` to the phase `p` of the same logical step, with no byte under way: they emit `es` and take the
answers `bs`. -/
structure Stage (row : StepRow) (n : Nat) (es : List BusEvent) (bs : List Bit) (p : Phase) (s t : State) : Prop where
  run : SeqRun (fun u => u.step = s.step) n s t
  trace : t.trace = s.trace ++ es
  answers : ∀ rest, s.env.answers = bs ++ rest → t.env.answers = rest
  inStep : t.InStep row p
  idle : t.EngineIdle
  cfg : t.cfg = s.cfg
  step : t.step = s.step

theorem Stage.trans {row : StepRow} {m n : Nat} {es fs : List BusEvent} {bs cs : List Bit} {p q : Phase}
    {s t u : State} (h₁ : Stage row m es bs p s t) (h₂ : Stage row n fs cs q t u) :
    Stage row (m + n) (es ++ fs) (bs ++ cs) q s u where
  run := h₁.run.trans (h₁.step ▸ h₂.run)
  trace := by rw [h₂.trace, h₁.trace, List.append_assoc]
  answers rest h := h₂.answers rest (h₁.answers _ (by rw [h, List.append_assoc]))
  inStep := h₂.inStep
  idle := h₂.idle
  cfg := h₂.cfg.trans h₁.cfg
  step := h₂.step.trans h₁.step

/-! ### Start conditions -/

theorem stage_start {row : StepRow} {s : State} (h : s.InStep row .start) (he : s.EngineIdle) :
    ∃ t, Stage row 1 startWave [] .addressW s t ∧ t.idx = s.idx := by
  obtain ⟨hc, hb, hrow, hwait, hp⟩ := h
  have hcons : Consistent row s :=
    consistent_of_engineIdle he hwait (by simp [hp]) (by simp [hp]) (by simp [hp]) (by simp [hp])
  have hd := (seqDispatch_of_start hwait hp).trans ((phaseStart_ok_iff _ _).2 ⟨he, rfl⟩)
  exact ⟨_, ⟨.single rfl (seqstep_of_dispatch hb hrow hcons hd), rfl, fun _ h => h, ⟨hc, hb, hrow, hwait, rfl⟩, he, rfl,
    rfl⟩, rfl⟩

theorem stage_restart {row : StepRow} {s : State} (h : s.InStep row .restart) (he : s.EngineIdle)
    (hrd : row.isRead = true) : ∃ t, Stage row 1 startWave [] .addressR s t ∧ t.idx = s.idx := by
  obtain ⟨hc, hb, hrow, hwait, hp⟩ := h
  have hcons : Consistent row s :=
    consistent_of_engineIdle he hwait (by simp [hp]) (by simp [hp]) (fun _ => hrd) (by simp [hp])
  have hd := (seqDispatch_of_restart hwait hp).trans ((phaseRestart_ok_iff _ _).2 ⟨he, rfl⟩)
  exact ⟨_, ⟨.single rfl (seqstep_of_dispatch hb hrow hcons hd), rfl, fun _ h => h, ⟨hc, hb, hrow, hwait, rfl⟩, he, rfl,
    rfl⟩, rfl⟩

/-! ### A byte sent and acknowledged -/

section
variable {row : StepRow} {s : State} {p succ : Phase} {byte : Byte} (h : s.InStep row p) (he : s.EngineIdle)
  (hi : writeItem s.cfg row p = some (byte, succ))
include h he hi

/-- A SEQSTEP in a phase that sends a byte, once it is loaded (R186). -/
theorem seqstep_sent {n : Nat} {t : State} {r : WReturn} (hn : n ≤ 8)
    (hstep : wstep (s.sent byte succ .stopFail n) = .ok (t, r)) (hr : r ≠ .nack) :
    seqstep (s.sent byte succ .stopFail n) = .ok (t, t.step.seqReturn) := by
  obtain ⟨_, hb, hrow, hwait, rfl⟩ := h
  have hcons : Consistent row (s.sent byte succ .stopFail n) :=
    consistent_of_sending (consistent_of_writeItem hwait he hi) (writeItem_fits hi).1 rfl rfl
  have hbusy : (s.sent byte succ .stopFail n).w.state ≠ .idle := by
    rcases hn.lt_or_eq with hn | rfl
    · simp [sent_state s byte succ .stopFail hn]
    · simp [State.sent]
  refine seqstep_of_dispatch hb hrow hcons ?_
  rw [seqDispatch_of_writeItem (s := s.sent byte succ .stopFail n) hwait hi, writePhase_of_busy hbusy hstep, if_neg hr]

/-- Up to eight SEQSTEPs send as many bits. -/
theorem seqRun_sent {n : Nat} (hn : n < 8) :
    SeqRun (fun u => u.step = s.step) (n + 1) s (s.sent byte succ .stopFail (n + 1)) := by
  induction n with
  | zero =>
    obtain ⟨_, hb, hrow, hwait, rfl⟩ := h
    refine .single rfl (seqstep_of_dispatch hb hrow (consistent_of_writeItem hwait he hi) ?_)
    rw [seqDispatch_of_writeItem hwait hi, writePhase_of_idle he]
  | succ n ih =>
    have hbit := seqstep_sent h he hi hn.le (wstep_sent s byte succ .stopFail hn) (by simp)
    exact (ih (by omega)).trans (.single rfl hbit)

theorem stage_write (ha : s.env.answers.head? = some false) :
    ∃ t, Stage row 9 (byteWave byte ++ ackSlotWave false) [false] succ s t ∧ t.idx = s.idx := by
  obtain ⟨rest, ha⟩ := List.head?_eq_some_iff.1 ha
  have hdraw : ackDraw (s.sent byte succ .stopFail 8) = false := ackDraw_of_answer ha
  have hcheck : wstep (s.sent byte succ .stopFail 8) = .ok (ackCheck (s.sent byte succ .stopFail 8)) :=
    wstep_of_check (.inl rfl)
  rw [ackCheck_sent, hdraw] at hcheck
  have hrun := (seqRun_sent h he hi (n := 7) (by decide)).trans
    (.single rfl (seqstep_sent h he hi le_rfl hcheck (by simp [ackReturn])))
  obtain ⟨hc, hb, hrow, hwait, _⟩ := h
  refine ⟨_, ⟨hrun, ?_, ?_, ⟨hc, hb, hrow, hwait, rfl⟩, ⟨rfl, he.2⟩, rfl, rfl⟩, rfl⟩
  · exact List.append_assoc _ _ _
  · exact fun rest h => by simp [Env.advance, h]

end

/-- The bytes both kinds of transaction begin with: the address for writing, and the register (R101). -/
theorem stage_header {row : StepRow} {s : State} {reg : Byte} {succ : Phase} (h : s.InStep row .start)
    (he : s.EngineIdle) (hi : writeItem s.cfg row .registerSelect = some (reg, succ)) {rest : List Bit}
    (ha : s.env.answers = false :: false :: rest) :
    ∃ t, Stage row 19 (startWave ++ (byteWave (addrWByte s.cfg) ++ ackSlotWave false)
      ++ (byteWave reg ++ ackSlotWave false)) [false, false] succ s t ∧ t.idx = s.idx := by
  obtain ⟨t₁, h₁, hi₁⟩ := stage_start h he
  have ha₁ : t₁.env.answers = false :: false :: rest := h₁.answers _ ha
  have hitem : writeItem t₁.cfg row .addressW = some (addrWByte s.cfg, .registerSelect) := by rw [h₁.cfg]; rfl
  obtain ⟨t₂, h₂, hi₂⟩ := stage_write h₁.inStep h₁.idle hitem (by rw [ha₁]; rfl)
  have ha₂ : t₂.env.answers = false :: rest := h₂.answers _ ha₁
  rw [← h₁.cfg, ← h₂.cfg] at hi
  obtain ⟨t₃, h₃, hi₃⟩ := stage_write h₂.inStep h₂.idle hi (by rw [ha₂]; rfl)
  exact ⟨t₃, (h₁.trans h₂).trans h₃, hi₃.trans (hi₂.trans hi₁)⟩

/-! ### The bytes received -/

section
variable {reg : Byte} {n : Nat} {tg : Target} {s : State} (h : s.InStep (.read reg n tg) .read) (he : s.EngineIdle)
  (hlt : s.idx.val < n)
include h he hlt

/-- A SEQSTEP in the phase READ, once the byte is primed (R192). -/
theorem seqstep_received {bs : List Bit} {t u : State} {r : RReturn} (hn : bs.length ≤ 8)
    (hstep : rstep ((s.primedFor (.read reg n tg)).received bs) = .ok (t, r))
    (hu : (if r = .complete then storeByte t else .ok t) = .ok u) :
    seqstep ((s.primedFor (.read reg n tg)).received bs) = .ok (u, u.step.seqReturn) := by
  obtain ⟨_, hb, hrow, hwait, hp⟩ := h
  have hbusy : ((s.primedFor (.read reg n tg)).received bs).r.state ≠ .idle := by
    rcases hn.lt_or_eq with hn | hn
    · simp [received_state _ hn]
    · simp only [State.received, hn, if_true]
      cases (s.primedFor (.read reg n tg)).r.nack <;> simp [slotState]
  have hd : seqDispatch (.read reg n tg) ((s.primedFor (.read reg n tg)).received bs) = phaseRead (.read reg n tg) _ :=
    seqDispatch_of_read hwait hp
  exact seqstep_of_dispatch hb hrow (consistent_of_reading hp rfl he.1 fun _ => hlt)
    (hd.trans ((phaseRead_of_busy hbusy hstep).trans hu))

/-- A SEQSTEP that primes the byte and up to eight that take in its bits. -/
theorem seqRun_received {k : Nat} (hk : k ≤ 8) :
    SeqRun (fun u => u.step = s.step) (k + 1) s
      ((s.primedFor (.read reg n tg)).received ((s.primedFor (.read reg n tg)).sampled k)) := by
  induction k with
  | zero =>
    obtain ⟨_, hb, hrow, hwait, hp⟩ := h
    refine .single rfl (seqstep_of_dispatch hb hrow (consistent_of_reading hp rfl he.1 fun _ => hlt) ?_)
    rw [seqDispatch_of_read hwait hp, phaseRead_of_idle he]
    rfl
  | succ k ih =>
    have hbit := seqstep_received h he hlt ((sampled_length _ k).trans_le (by omega)) (rstep_sampled _ hk) rfl
    exact (ih (by omega)).trans (.single rfl hbit)

/-- One byte received, answered and stored. -/
theorem stage_readByte {d : Byte} {b : RxBuffer} {rest : List Bit} (ha : s.env.answers = wireBits d ++ rest)
    (hset : s.buf.set s.idx.val d = some b) :
    ∃ t, Stage (.read reg n tg) 10 (.sda true :: readWave (wireBits d) ++ answerWave (decide (s.idx.val + 1 = n)))
      (wireBits d) (if s.idx.val + 1 = n then .stop else .read) s t ∧ t.idx = s.idx + 1 ∧ t.buf = b := by
  have hbits := seqRun_received h he hlt le_rfl
  rw [sampled_of_byte (s := s.primedFor (.read reg n tg)) ha] at hbits
  have hslot := seqstep_received h he hlt le_rfl (rstep_received (s.primedFor (.read reg n tg)) d)
    ((if_pos rfl).trans (storeByte_of_set hset))
  obtain ⟨hc, hb, hrow, hwait, _⟩ := h
  refine ⟨_, ⟨hbits.trans (.single rfl hslot), rfl, ?_, ⟨hc, hb, hrow, hwait, rfl⟩, ⟨he.1, rfl⟩, rfl, rfl⟩, rfl, rfl⟩
  intro rest h
  show s.env.answers.drop 8 = rest
  rw [h]
  rfl

end

/-- Storing bytes one after another from an index on. -/
def RxBuffer.fill : RxBuffer → Nat → List Byte → Option RxBuffer
  | b, _, [] => some b
  | b, i, d :: ds => (b.set i d).bind fun b' => b'.fill (i + 1) ds

theorem RxBuffer.set_isSome (b : RxBuffer) {i : Nat} (hi : i < 3) (d : Byte) : ∃ b', b.set i d = some b' := by
  interval_cases i <;> exact ⟨_, rfl⟩

/-- The bytes of a read step, from the first not yet received to the last. -/
theorem stage_readBytes {reg : Byte} {n : Nat} {tg : Target} {s : State} {d : Byte} {ds : List Byte} {rest : List Bit}
    (h : s.InStep (.read reg n tg) .read) (he : s.EngineIdle) (hn : n ≤ 3) (hlen : s.idx.val + (d :: ds).length = n)
    (ha : s.env.answers = (d :: ds).flatMap wireBits ++ rest) :
    ∃ t, Stage (.read reg n tg) (10 * (d :: ds).length) (dataWave (d :: ds)) ((d :: ds).flatMap wireBits) .stop s t
      ∧ s.buf.fill s.idx.val (d :: ds) = some t.buf := by
  induction ds generalizing s d with
  | nil =>
    have hlast : s.idx.val + 1 = n := hlen
    obtain ⟨b, hb⟩ := s.buf.set_isSome (by omega : s.idx.val < 3) d
    obtain ⟨t, ht, _, htb⟩ := stage_readByte h he (by omega) ha hb
    simp only [hlast, decide_true, if_true] at ht
    exact ⟨t, ht, by simp [RxBuffer.fill, hb, htb]⟩
  | cons e ds ih =>
    have hmore : s.idx.val + 1 ≠ n := by simp at hlen; omega
    obtain ⟨b, hb⟩ := s.buf.set_isSome (by simp at hlen; omega : s.idx.val < 3) d
    rw [List.flatMap_cons, List.append_assoc] at ha
    obtain ⟨t, ht, hti, htb⟩ := stage_readByte h he (by simp at hlen; omega) ha hb
    simp only [hmore, decide_false, if_false] at ht
    have hidx : t.idx.val = s.idx.val + 1 := by
      rw [hti, Fin.val_add]
      simp at hlen
      exact Nat.mod_eq_of_lt (by simp; omega)
    obtain ⟨u, hu, hub⟩ := ih ht.inStep ht.idle (by simp at hlen ⊢; omega) (ht.answers _ ha)
    refine ⟨u, ?_, ?_⟩
    · have htu := ht.trans hu
      rw [show 10 + 10 * (e :: ds).length = 10 * (d :: e :: ds).length by simp; omega] at htu
      exact htu
    · rw [RxBuffer.fill, hb, ← hub, htb, hidx]
      rfl

/-! ### The end of a transaction -/

/-- `n` SEQSTEPs lead from `s` through the whole of its logical step and into the next: they emit `es`, take the answers `bs`,
and leave the bus and the engine idle. -/
structure Completes (n : Nat) (es : List BusEvent) (bs : List Bit) (s t : State) : Prop where
  run : SeqRun (fun u => u.step = s.step) n s t
  next : s.step.next = some t.step
  phase : t.phase = entryPhase t.step
  trace : t.trace = s.trace ++ es
  answers : ∀ rest, s.env.answers = bs ++ rest → t.env.answers = rest
  busIdle : t.BusIdle
  engineIdle : t.EngineIdle
  idx : t.idx = 0

/-- The stop condition and the commit end a transaction. -/
theorem Stage.completes {row : StepRow} {n : Nat} {es : List BusEvent} {bs : List Bit} {s t u : State}
    (h : Stage row n es bs .stop s t) (hu : commit row t.stopped = .ok u) :
    ∃ v, Completes (n + 1) (es ++ stopWave) bs s v
      ∧ v = u.enter v.step v.phase := by
  obtain ⟨_, hb, hrow, hwait, hp⟩ := h.inStep
  obtain ⟨nxt, hn⟩ := next_isSome_of_row hrow
  have hcons : Consistent row t :=
    consistent_of_engineIdle h.idle hwait (by simp [hp]) (by simp [hp]) (by simp [hp]) (by simp [hp])
  have hd := (seqDispatch_of_stop hwait hp).trans (phaseStop_of_commit h.idle hu hn)
  have hf := commit_frame hu
  have htrace : u.trace = t.trace ++ stopWave := (congrArg State.trace hf :)
  have henv : u.env = t.env := (congrArg State.env hf :)
  have hw : u.w = t.w := (congrArg State.w hf :)
  have hr : u.r = t.r := (congrArg State.r hf :)
  refine ⟨u.enter nxt (entryPhase nxt), ⟨h.run.trans (.single h.step (seqstep_of_dispatch hb hrow hcons hd)), ?_, rfl, ?_,
    fun rest ha => ?_, ?_, ⟨?_, ?_⟩, rfl⟩, rfl⟩
  · rw [← h.step]; exact hn
  · rw [State.enter_trace, htrace, h.trace, List.append_assoc]
  · rw [State.enter_env, henv]; exact h.answers rest ha
  · exact (congrArg State.lines hf :)
  · rw [State.enter_w, hw]; exact h.idle.1
  · rw [State.enter_r, hr]; exact h.idle.2

/-- A commit of bytes stored from the first element on assembles the target from them. -/
theorem commit_of_fill {reg : Byte} {n : Nat} {tg : Target} {b : RxBuffer} {ds : List Byte} {s : State}
    (hlen : ds.length = tg.count) (hf : b.fill 0 ds = some s.buf) :
    ∃ u, commit (.read reg n tg) s = .ok u ∧ tg.holds ds u := by
  cases tg with
  | devId =>
    obtain ⟨h, rfl⟩ := List.length_eq_one_iff.1 hlen
    exact ⟨{ s with devId := some h }, by simp [commit, ← Option.some.inj hf], rfl⟩
  | cal f =>
    obtain ⟨h, l, rfl⟩ := List.length_eq_two.1 hlen
    refine ⟨{ s with cal := s.cal.set f (asm16 h l) }, by simp [commit, ← Option.some.inj hf], ?_⟩
    exact (Calibration.get_set _ _ _ _).trans (if_pos rfl)
  | ut =>
    obtain ⟨h, l, rfl⟩ := List.length_eq_two.1 hlen
    exact ⟨{ s with ut := some (asm16 h l) }, by simp [commit, ← Option.some.inj hf], rfl⟩
  | up =>
    obtain ⟨h, m, l, rfl⟩ := List.length_eq_three.1 hlen
    exact ⟨{ s with up := some (assembleUp s.cfg.oss h m l) }, by simp [commit, ← Option.some.inj hf], rfl⟩

/-! ### The two kinds of transaction -/

/-- A read step whose slots are acknowledged (R101, R197). -/
theorem readTransaction_completes {s : State} {reg : Byte} {n : Nat} {tg : Target} {ds : List Byte} {rest : List Bit}
    (h : s.InStep (.read reg n tg) .start) (he : s.EngineIdle) (hidx : s.idx = 0) (hlen : ds.length = n)
    (ha : s.env.answers = [false, false, false] ++ ds.flatMap wireBits ++ rest) :
    ∃ t, Completes (30 + 10 * n) (readTransaction s.cfg reg ds) ([false, false, false] ++ ds.flatMap wireBits) s t
      ∧ tg.holds ds t := by
  have ⟨_, _, hrow, _⟩ := h
  obtain ⟨hpos, hle⟩ := count_of_read hrow
  obtain ⟨t₁, h₁, hi₁⟩ := stage_header h he rfl ha
  have ha₁ := h₁.answers _ ha
  obtain ⟨t₂, h₂, hi₂⟩ := stage_restart h₁.inStep h₁.idle rfl
  have ha₂ := h₂.answers _ ha₁
  obtain ⟨t₃, h₃, hi₃⟩ := stage_write (byte := addrRByte t₂.cfg) h₂.inStep h₂.idle rfl (by rw [ha₂]; rfl)
  have ha₃ := h₃.answers _ ha₂
  have hi₀ : t₃.idx.val = 0 := by rw [hi₃, hi₂, hi₁, hidx]; rfl
  obtain ⟨d, ds, rfl⟩ := List.exists_cons_of_length_pos (hlen ▸ hpos)
  obtain ⟨t₄, h₄, hfill⟩ := stage_readBytes h₃.inStep h₃.idle hle (by rw [hi₀, Nat.zero_add, hlen]) ha₃
  rw [hi₀] at hfill
  obtain ⟨u, hu, hholds⟩ := commit_of_fill (s := t₄.stopped) (hlen.trans (count_of_target hrow)) hfill
  obtain ⟨v, hv, hvu⟩ := (((h₁.trans h₂).trans h₃).trans h₄).completes hu
  refine ⟨v, ?_, hvu ▸ hholds⟩
  rw [h₂.cfg, h₁.cfg, hlen, show 19 + 1 + 9 + 10 * n + 1 = 30 + 10 * n by omega] at hv
  simpa only [readTransaction, List.append_assoc, List.cons_append, List.nil_append] using hv

/-- A trigger step whose slots are acknowledged (R101, R198). -/
theorem writeTransaction_completes {s : State} {reg cmd : Byte} {rest : List Bit}
    (h : s.InStep (.write reg cmd) .start) (he : s.EngineIdle)
    (ha : s.env.answers = [false, false, false] ++ rest) :
    ∃ t, Completes 29 (writeTransaction s.cfg reg cmd) [false, false, false] s t := by
  obtain ⟨t₁, h₁, _⟩ := stage_header h he rfl ha
  have ha₁ := h₁.answers _ ha
  obtain ⟨t₂, h₂, _⟩ := stage_write (byte := cmd) h₁.inStep h₁.idle rfl (by rw [ha₁]; rfl)
  obtain ⟨v, hv, _⟩ := (h₁.trans h₂).completes (u := t₂.stopped) rfl
  exact ⟨v, by simpa only [writeTransaction, List.append_assoc, List.cons_append, List.nil_append] using hv⟩

/-! ### The events of a transaction by kind -/

/-- The counts of two intervals together. -/
def EventCounts.plus (a b : EventCounts) : EventCounts :=
  ⟨a.half + b.half, a.scl + b.scl, a.sda + b.sda, a.sample + b.sample, a.sleep + b.sleep⟩

theorem eventCounts_append (es fs : List BusEvent) :
    eventCounts (es ++ fs) = (eventCounts es).plus (eventCounts fs) := by
  simp [eventCounts, EventCounts.plus, List.countP_append]

theorem eventCounts_startWave : eventCounts startWave = ⟨2, 2, 2, 0, 0⟩ := rfl

theorem eventCounts_stopWave : eventCounts stopWave = ⟨2, 1, 2, 0, 0⟩ := rfl

theorem eventCounts_sendAckWave : eventCounts sendAckWave = ⟨2, 2, 2, 0, 0⟩ := rfl

theorem eventCounts_byteWave (b : Byte) : eventCounts (byteWave b) = ⟨16, 16, 8, 0, 0⟩ := rfl

theorem eventCounts_ackSlotWave (a : Bit) : eventCounts (ackSlotWave a) = ⟨2, 2, 1, 1, 0⟩ := rfl

theorem eventCounts_readByte (d : Byte) :
    eventCounts (.sda true :: readWave (wireBits d)) = ⟨16, 16, 1, 8, 0⟩ := rfl

/-- Every byte but the last is answered with one SDA event more. -/
theorem eventCounts_dataWave (d : Byte) (ds : List Byte) :
    eventCounts (dataWave (d :: ds)) = ⟨18 * ds.length + 18, 18 * ds.length + 18, 3 * ds.length + 2, 8 * ds.length + 8, 0⟩ := by
  induction ds generalizing d with
  | nil => rfl
  | cons e ds ih =>
    rw [dataWave, eventCounts_append, ih, eventCounts_append, eventCounts_readByte,
      eventCounts_sendAckWave]
    simp only [List.length_cons, EventCounts.plus, EventCounts.mk.injEq, and_true]
    omega

theorem eventCounts_readTransaction (c : Cfg) (reg : Byte) {ds : List Byte} (h : ds ≠ []) :
    eventCounts (readTransaction c reg ds) =
      ⟨60 + 18 * ds.length, 59 + 18 * ds.length, 32 + 3 * ds.length, 3 + 8 * ds.length, 0⟩ := by
  obtain ⟨d, ds, rfl⟩ := List.exists_cons_of_ne_nil h
  simp only [readTransaction, eventCounts_append, eventCounts_byteWave, eventCounts_ackSlotWave, eventCounts_dataWave,
    eventCounts_startWave, eventCounts_stopWave, EventCounts.plus, List.length_cons, EventCounts.mk.injEq, and_true]
  omega

theorem eventCounts_writeTransaction (c : Cfg) (reg cmd : Byte) :
    eventCounts (writeTransaction c reg cmd) = ⟨58, 57, 31, 3, 0⟩ := by
  simp only [writeTransaction, eventCounts_append, eventCounts_byteWave, eventCounts_ackSlotWave, eventCounts_startWave,
    eventCounts_stopWave, EventCounts.plus]

/-! ### The obligations -/

/-- What the host's SEQSTEPs make of a completed step. -/
theorem Completes.seqsteps {n : Nat} {es : List BusEvent} {bs : List Bit} {s t : State} (h : Completes n es bs s t)
    (hc : s.Clear) :
    (∀ k < n, ∃ u, Machine.seqsteps k s = .next u ∧ u.Clear ∧ u.step = s.step) ∧
      ∃ v, Machine.seqsteps n s = .next (t.returning v) ∧ t.Clear := by
  obtain ⟨⟨v, hv⟩, hbefore⟩ := h.run.seqsteps hc s.ret
  refine ⟨fun k hk => ?_, v, hv, h.run.sameHost.clear hc⟩
  obtain ⟨q, vq, hq, hstep, hcq⟩ := hbefore k hk
  exact ⟨q.returning vq, hq, hcq, hstep⟩

/-- Settles O41: the header, the repeated start with the address for reading, each byte, and the stop condition. -/
theorem readTransactionWhole : Obligations.ReadTransactionWhole := by
  intro s reg n tg ds rest h he hidx hlen ha
  have ⟨hc, _, hrow, _⟩ := h
  obtain ⟨t, ht, hholds⟩ := readTransaction_completes h he hidx hlen ha
  obtain ⟨hbefore, v, hv, hct⟩ := ht.seqsteps hc
  have hne : ds ≠ [] := fun h0 => by simp [h0] at hlen; have := (count_of_read hrow).1; omega
  refine ⟨hbefore, t.returning v, hv, hct, ht.next, hholds, ht.trace, ?_, ht.busIdle, ht.engineIdle, ht.idx,
    ht.answers _ ha⟩
  rw [eventCounts_readTransaction _ _ hne, hlen]

/-- Settles O42: the header, the command, and the stop condition. -/
theorem triggerTransactionWhole : Obligations.TriggerTransactionWhole := by
  intro s reg cmd rest h he ha
  obtain ⟨t, ht⟩ := writeTransaction_completes h he ha
  obtain ⟨hbefore, v, hv, hct⟩ := ht.seqsteps h.1
  exact ⟨hbefore, t.returning v, hv, hct, ht.next, ht.trace, eventCounts_writeTransaction _ _ _, ht.busIdle,
    ht.engineIdle, ht.idx, ht.answers _ ha⟩

end Sys2Proof.Machine
end

/-! PROOFS. In a legal state of an acquisition a SEQSTEP raises no fault (R196, R204). -/
section
namespace Sys2Proof.Machine

theorem wstep_ok {s : State} (h : s.w.state ≠ .idle) : ∃ t r, wstep s = .ok (t, r) := by
  cases hw : wstep s with
  | ok p => exact ⟨p.1, p.2, rfl⟩
  | error f => exact absurd ((wstep_error_iff s f).1 hw).1 h

theorem rstep_ok {s : State} (h : s.r.state ≠ .idle) : ∃ t r, rstep s = .ok (t, r) := by
  cases hr : rstep s with
  | ok p => exact ⟨p.1, p.2, rfl⟩
  | error f => exact absurd ((rstep_error_iff s f).1 hr).1 h

theorem writePhase_ok {s : State} (hr : s.r.state = .idle) (byte : Byte) (succ : Phase) :
    ∃ t, writePhase byte succ s = .ok t := by
  by_cases hw : s.w.state = .idle
  · exact ⟨_, writePhase_of_idle ⟨hw, hr⟩ byte succ⟩
  · obtain ⟨t, r, h⟩ := wstep_ok hw
    exact ⟨_, writePhase_of_busy hw h byte succ⟩

theorem phaseRead_ok {row : StepRow} {s : State} (hw : s.w.state = .idle) (hi : s.r.state ≠ .idle → s.idx.val < 3) :
    ∃ t, phaseRead row s = .ok t := by
  by_cases hr : s.r.state = .idle
  · exact ⟨_, phaseRead_of_idle ⟨hw, hr⟩⟩
  · obtain ⟨t, r, h⟩ := rstep_ok hr
    rw [phaseRead_of_busy hr h]
    have hframe := rstep_frame h
    have hbuf : t.buf = s.buf := (congrArg State.buf hframe :)
    have hidx : t.idx = s.idx := (congrArg State.idx hframe :)
    obtain ⟨b, hb⟩ := t.buf.set_isSome (hidx ▸ hi hr) t.r.byte
    cases r with
    | inProgress => exact ⟨t, rfl⟩
    | complete => exact ⟨_, storeByte_of_set hb⟩

/-- Every phase that sends a byte has one for the rows it fits. -/
theorem writeItem_isSome {row : StepRow} {s : State} (hc : Consistent row s) (hwait : row.isWait = false)
    (hw : isWritePhase s.phase = true) : ∃ x, writeItem s.cfg row s.phase = some x := by
  have hcmd := hc.command
  have hrd := hc.reads
  cases hp : s.phase with
  | addressW => exact ⟨_, rfl⟩
  | registerSelect =>
    cases row with
    | read | write => exact ⟨_, rfl⟩
    | wait => cases hwait
  | writeData =>
    cases row with
    | write => exact ⟨_, rfl⟩
    | read | wait => cases hcmd hp
  | addressR =>
    cases row with
    | read => exact ⟨_, rfl⟩
    | write | wait => cases hrd (.inr (.inl hp))
  | idle | start | restart | read | stop | stopFail => rw [hp] at hw; cases hw

theorem seqDispatch_ok {row : StepRow} {s : State} (hrow : stepRow s.cfg s.step = some row) (hf : FlightInv row s) :
    ∃ t, seqDispatch row s = .ok t := by
  obtain ⟨_, hc, _, _, _, _, hstop, h0, h1, h2, _, hread, _⟩ := hf
  replace hc := (inconsistent_eq_false_iff _ _).1 hc
  obtain ⟨nxt, hn⟩ := next_isSome_of_row hrow
  cases hwait : row.isWait with
  | true =>
    cases row with
    | wait sleep => exact ⟨(s.emit sleep).enter nxt .start, by simp [seqDispatch, waitStep, hn]⟩
    | read | write => cases hwait
  | false =>
    cases hp : s.phase with
    | idle => exact absurd hp (hc.active hwait)
    | start =>
      have he := hc.conditions (.inl hp)
      exact ⟨_, (seqDispatch_of_start hwait hp).trans ((phaseStart_ok_iff _ _).2 ⟨he, rfl⟩)⟩
    | restart =>
      have he := hc.conditions (.inr (.inl hp))
      exact ⟨_, (seqDispatch_of_restart hwait hp).trans ((phaseRestart_ok_iff _ _).2 ⟨he, rfl⟩)⟩
    | stop =>
      have he := hc.conditions (.inr (.inr (.inl hp)))
      have hb : s.buf.filled row.count := hstop hp ▸ ⟨h0, h1, h2⟩
      obtain ⟨u, hu⟩ := commit_ok (s := s.stopped) hrow hb
      exact ⟨_, (seqDispatch_of_stop hwait hp).trans (phaseStop_of_commit he hu hn)⟩
    | stopFail =>
      have he := hc.conditions (.inr (.inr (.inr hp)))
      exact ⟨_, (seqDispatch_of_stopFail hwait hp).trans ((phaseStopFail_ok_iff _ _).2 ⟨he, rfl⟩)⟩
    | read =>
      have hcount := (count_of_isRead hrow (hc.reads (.inr (.inr hp)))).2
      rw [seqDispatch_of_read hwait hp]
      exact phaseRead_ok (hc.reading hp) fun hr => (hread hr).1.trans_le hcount
    | addressW | registerSelect | writeData | addressR =>
      have hw : isWritePhase s.phase = true := by rw [hp]; rfl
      obtain ⟨⟨byte, succ⟩, hi⟩ := writeItem_isSome hc hwait hw
      rw [seqDispatch_of_writeItem hwait hi]
      exact writePhase_ok (hc.sending hw) byte succ

theorem seqstep_ok_of_flight {row : StepRow} {s : State} (hrow : stepRow s.cfg s.step = some row)
    (hf : FlightInv row s) : ∃ t, seqDispatch row s = .ok t ∧ seqstep s = .ok (t, t.step.seqReturn) := by
  obtain ⟨t, ht⟩ := seqDispatch_ok hrow hf
  obtain ⟨hb, hc, _⟩ := hf
  exact ⟨t, ht, seqstep_of_dispatch hb hrow ((inconsistent_eq_false_iff _ _).1 hc) ht⟩

end Sys2Proof.Machine
end

/-! PROOFS. How far an acquisition is: every SEQSTEP is one further, or is the first of a failure (R197 to R199, R205). -/
section
namespace Sys2Proof.Machine

/-! ### Counting SEQSTEPs -/

/-- The SEQSTEPs a logical step takes (R197 to R199). -/
def StepRow.length : StepRow → Nat
  | .read _ n _ => 30 + 10 * n
  | .write _ _ => 29
  | .wait _ => 1

/-- The SEQSTEPs of an acquisition before a logical step (R205). -/
def Step.seqstepsBefore : Step → Nat
  | .idle | .readDeviceId | .failed => 0
  | .readAC1 => 40
  | .readAC2 => 90
  | .readAC3 => 140
  | .readAC4 => 190
  | .readAC5 => 240
  | .readAC6 => 290
  | .readB1 => 340
  | .readB2 => 390
  | .readMB => 440
  | .readMC => 490
  | .readMD => 540
  | .triggerTemp => 590
  | .waitT1 => 619
  | .readUT => 620
  | .triggerPressure => 670
  | .waitT2 => 699
  | .readUP => 700
  | .done => 760

/-- The SEQSTEPs of a logical step before a phase, the bytes received left out. -/
def phaseOffset (row : StepRow) : Phase → Nat
  | .idle | .start | .stopFail => 0
  | .addressW => 1
  | .registerSelect => 10
  | .writeData | .restart => 19
  | .addressR => 20
  | .read => 29
  | .stop => if row.isWrite then 28 else 29

/-- The SEQSTEPs spent on the byte being sent. -/
def WriteCtx.steps (w : WriteCtx) : Nat := if w.state = .idle then 0 else 8 - w.bits.val

/-- The SEQSTEPs spent on the byte being received. -/
def ReadCtx.steps (r : ReadCtx) : Nat := if r.state = .idle ∨ r.state = .priming then 0 else 9 - r.bits.val

/-- The SEQSTEPs spent on a logical step. -/
def State.stepsDone (row : StepRow) (s : State) : Nat :=
  phaseOffset row s.phase + s.w.steps + s.r.steps + 10 * s.idx.val

/-- The SEQSTEPs an acquisition has spent, where none was answered with a NACK. -/
def State.seqstepsDone (s : State) : Nat :=
  s.step.seqstepsBefore + ((stepRow s.cfg s.step).map fun row => s.stepsDone row).getD 0

theorem seqstepsDone_of_row {row : StepRow} {s : State} (hrow : stepRow s.cfg s.step = some row) :
    s.seqstepsDone = s.step.seqstepsBefore + s.stepsDone row := by
  simp [State.seqstepsDone, hrow]

theorem seqstepsBefore_next {c : Cfg} {st nxt : Step} {row : StepRow} (hrow : stepRow c st = some row)
    (hn : st.next = some nxt) : nxt.seqstepsBefore = st.seqstepsBefore + row.length := by
  cases st <;> cases hrow <;> cases hn <;> rfl

theorem seqstepsBefore_le_of_row {c : Cfg} {st : Step} {row : StepRow} (hrow : stepRow c st = some row) :
    st.seqstepsBefore ≤ 700 ∧ st.seqstepsBefore + row.length ≤ 760 := by
  cases st <;> cases hrow <;> simp [Step.seqstepsBefore, StepRow.length]

theorem WriteCtx.steps_of_idle {w : WriteCtx} (h : w.state = .idle) : w.steps = 0 := if_pos h

theorem ReadCtx.steps_of_idle {r : ReadCtx} (h : r.state = .idle) : r.steps = 0 := if_pos (.inl h)

/-- At the start of a logical step nothing is spent on it. -/
theorem seqstepsDone_of_entered {s : State} (he : s.EngineIdle) (hi : s.idx = 0)
    (hp : s.phase = .idle ∨ s.phase = .start) : s.seqstepsDone = s.step.seqstepsBefore := by
  have hoff (row : StepRow) : phaseOffset row s.phase = 0 := by rcases hp with hp | hp <;> rw [hp] <;> rfl
  have hzero (row : StepRow) : s.stepsDone row = 0 := by
    simp [State.stepsDone, hoff, WriteCtx.steps_of_idle he.1, ReadCtx.steps_of_idle he.2, hi]
  cases hrow : stepRow s.cfg s.step <;> simp [State.seqstepsDone, hrow, hzero]

end Sys2Proof.Machine
end

/-! PROOFS. One SEQSTEP spends one SEQSTEP. -/
section
namespace Sys2Proof.Machine

/-! ### Within a byte -/

theorem writeBit_steps {s : State} (hs : s.w.state = .shift) (hn : s.w.bits ≠ 0) :
    (writeBit s).w.steps = s.w.steps + 1 := by
  have hpos := one_le_bits hn
  have hcd := countDown_val s.w.bits
  have hstate : (if countDown s.w.bits = 0 then WState.ackCheck else .shift) ≠ .idle := by split <;> simp
  rw [writeBit_eq]
  simp only [WriteCtx.steps, hs, hstate, reduceCtorEq, if_false, hcd]
  omega

theorem readBit_steps {s : State} (hs : s.r.state = .reading) (hn : s.r.bits ≠ 0) :
    (readBit s).r.steps = s.r.steps + 1 := by
  have hpos := one_le_bits hn
  have hcd := countDown_val s.r.bits
  have hstate : ¬ ((if countDown s.r.bits = 0 then slotState s.r.nack else RState.reading) = .idle
      ∨ (if countDown s.r.bits = 0 then slotState s.r.nack else RState.reading) = .priming) := by
    split
    · cases s.r.nack <;> simp [slotState]
    · simp
  rw [readBit_eq, readCountAfter_of_ne hn]
  simp only [ReadCtx.steps, hs, hstate, reduceCtorEq, or_self, if_false, hcd]
  omega

theorem readPrime_steps (s : State) : (readPrime s).r.steps = 1 := by
  rw [readPrime_eq]
  rfl

theorem ReadCtx.steps_of_priming {r : ReadCtx} (h : r.state = .priming) : r.steps = 0 := if_pos (.inr h)

theorem ReadCtx.steps_of_slot {r : ReadCtx} (hs : r.state = .sendAck ∨ r.state = .sendNack) (hn : r.bits = 0) :
    r.steps = 9 := by
  rcases hs with hs | hs <;> simp [ReadCtx.steps, hs, hn]

/-! ### Within a step -/

/-- The continuation of a sent byte is the nine SEQSTEPs of the byte further. -/
theorem phaseOffset_continuation {row : StepRow} {s : State} (hc : Consistent row s) (hw : isWritePhase s.phase = true) :
    phaseOffset row (writeContinuation row s.phase) = phaseOffset row s.phase + 9 := by
  have hcmd := hc.command
  cases hp : s.phase with
  | addressW | addressR => rfl
  | registerSelect => cases hrw : row.isWrite <;> simp [writeContinuation, hrw, phaseOffset]
  | writeData => simp [writeContinuation, phaseOffset, hcmd hp]
  | idle | start | restart | read | stop | stopFail => rw [hp] at hw; cases hw

/-- What a SEQSTEP within a step does to the count: one more, or, for a NACK, the phase STOP_FAIL instead. -/
def Advances (row : StepRow) (s t : State) : Prop :=
  (t.stepsDone row = s.stepsDone row + 1 ∧ t.phase ≠ .stopFail)
    ∨ (t.phase = .stopFail ∧ s.stepsDone row ≤ 28)

theorem writePhase_advances {row : StepRow} {byte : Byte} {succ : Phase} {s t : State} (hf : FlightInv row s)
    (he : EngineInv s) (hw : isWritePhase s.phase = true)
    (h : writePhase byte succ s = .ok t) : Advances row s t := by
  obtain ⟨_, hc, _, _, hi, _, _, _, _, _, hctx, _, _⟩ := hf
  replace hc := (inconsistent_eq_false_iff _ _).1 hc
  have hidx : s.idx.val = 0 := hi (.inl hw)
  have hr : s.r.steps = 0 := ReadCtx.steps_of_idle (hc.sending hw)
  have hnf : s.phase ≠ .stopFail := fun hp => by rw [hp] at hw; cases hw
  have hoff := phaseOffset_continuation hc hw
  have bits_sent {t : State} (ht : t.w.steps = s.w.steps + 1) (hp : t.phase = s.phase) (htr : t.r = s.r)
      (hti : t.idx = s.idx) : Advances row s t := by
    refine .inl ⟨?_, hp ▸ hnf⟩
    simp only [State.stepsDone, ht, hp, htr, hti]
    omega
  have checked (hk : s.w.state = .ackCheck ∨ (s.w.state = .shift ∧ s.w.bits = 0)) :
      s.w.steps = 8 ∧ s.w.succ = writeContinuation row s.phase ∧ s.w.err = .stopFail := by
    have hbusy : s.w.state ≠ .idle := by rcases hk with hk | ⟨hk, _⟩ <;> simp [hk]
    have hbits : s.w.bits = 0 := hk.elim he.2.1 And.right
    exact ⟨by simp [WriteCtx.steps, hbusy, hbits], hctx hbusy⟩
  rcases writePhase_cases h with ⟨hidle, rfl⟩ | ⟨hs, hn, rfl⟩ | ⟨hk, hd, rfl⟩ | ⟨hk, hd, rfl⟩
  · refine bits_sent ?_ rfl rfl rfl
    rw [writeBit_steps rfl (show (8 : Fin 9) ≠ 0 by decide), WriteCtx.steps_of_idle hidle.1]
    rfl
  · exact bits_sent (writeBit_steps hs hn) rfl rfl rfl
  · obtain ⟨hsteps, hsucc, _⟩ := checked hk
    obtain ⟨_, _, hwithin, _⟩ := writeContinuation_within (row := row) hw
    have hph : (ackCheck s).1.phase = writeContinuation row s.phase := by
      rw [ackCheck_eq]; simp [WriteCtx.continuation, hd, hsucc]
    have hwi : (ackCheck s).1.w.steps = 0 := WriteCtx.steps_of_idle (by rw [ackCheck_eq])
    refine .inl ⟨?_, hph ▸ hwithin⟩
    simp only [State.stepsDone, hph, hoff, hwi, hsteps, show (ackCheck s).1.r = s.r from rfl,
      show (ackCheck s).1.idx = s.idx from rfl]
    omega
  · obtain ⟨hsteps, _, herr⟩ := checked hk
    refine .inr ⟨?_, ?_⟩
    · rw [State.recordFail_phase, ackCheck_eq]; simp [WriteCtx.continuation, hd, herr]
    · have h20 : phaseOffset row s.phase ≤ 20 := by
        cases hp : s.phase with
        | stop => rw [hp] at hw; cases hw
        | read => rw [hp] at hw; cases hw
        | _ => simp [phaseOffset]
      simp only [State.stepsDone, hr, hsteps, hidx]
      omega

theorem phaseRead_advances {row : StepRow} {s t : State} (hf : FlightInv row s) (he : EngineInv s)
    (hrow : stepRow s.cfg s.step = some row) (hp : s.phase = .read) (h : phaseRead row s = .ok t) :
    Advances row s t := by
  obtain ⟨_, hc, _, _, _, _, _, _, _, _, _, hctx, _⟩ := hf
  obtain ⟨_, _, hbits, hslot, _⟩ := he
  replace hc := (inconsistent_eq_false_iff _ _).1 hc
  have hrd : row.isRead = true := hc.reads (.inr (.inr hp))
  have hcount := (count_of_isRead hrow hrd).2
  have taken {t : State} (ht : t.r.steps = s.r.steps + 1) (htp : t.phase = s.phase) (htw : t.w = s.w)
      (hti : t.idx = s.idx) : Advances row s t := by
    refine .inl ⟨?_, by simp [htp, hp]⟩
    simp only [State.stepsDone, ht, htp, htw, hti]
    omega
  have stored {u : State} (hs : s.r.state = .sendAck ∨ s.r.state = .sendNack) (hu : u.r.state = .idle)
      (huw : u.w = s.w) (hup : u.phase = s.r.succ) (hui : u.idx = s.idx) (h : storeByte u = .ok t) :
      Advances row s t := by
    obtain ⟨b, _, rfl⟩ := storeByte_cases h
    obtain ⟨hlt, _, hsucc⟩ := hctx (by rcases hs with hs | hs <;> simp [hs])
    have hidx : (u.idx + 1).val = s.idx.val + 1 := by
      rw [hui, Fin.val_add]
      exact Nat.mod_eq_of_lt (by simp; omega)
    have hoff : phaseOffset row s.r.succ = 29 ∧ s.r.succ ≠ .stopFail := by
      rw [hsucc]
      cases row with
      | read => split <;> exact ⟨rfl, nofun⟩
      | write | wait => cases hrd
    refine .inl ⟨?_, hup ▸ hoff.2⟩
    simp only [State.stepsDone, hup, hoff.1, huw, ReadCtx.steps_of_idle hu, hidx, hp,
      ReadCtx.steps_of_slot hs (hslot hs), show phaseOffset row .read = 29 from rfl]
    omega
  rcases phaseRead_cases h with ⟨hidle, rfl⟩ | ⟨hs, rfl⟩ | ⟨hs, rfl⟩ | ⟨hs, hst⟩ | ⟨hs, hst⟩
  · exact taken (by rw [readPrime_steps, ReadCtx.steps_of_idle hidle.2]) rfl rfl rfl
  · exact taken (by rw [readPrime_steps, ReadCtx.steps_of_priming hs]) rfl rfl rfl
  · have hn : s.r.bits ≠ 0 := fun h0 => by have := (hbits hs).1; simp [h0] at this
    exact taken (readBit_steps hs hn) rfl rfl rfl
  · exact stored (u := readSendAck s) (.inl hs) (by rw [readSendAck_eq]) rfl rfl rfl hst
  · exact stored (u := readSendNack s) (.inr hs) (by rw [readSendNack_eq]) rfl rfl rfl hst

/-! ### Every SEQSTEP -/

/-- In the phase STOP all but the last SEQSTEP of the step are spent. -/
theorem stepsDone_of_stop {row : StepRow} {s : State} (he : s.EngineIdle) (hwait : row.isWait = false)
    (hp : s.phase = .stop) (hi : s.idx.val = row.count) : s.stepsDone row + 1 = row.length := by
  simp only [State.stepsDone, hp, WriteCtx.steps_of_idle he.1, ReadCtx.steps_of_idle he.2, hi]
  cases row with
  | read reg n tg => simp [phaseOffset, StepRow.isWrite, StepRow.count, StepRow.length]; omega
  | write => rfl
  | wait => cases hwait

theorem stepsDone_of_wait {row : StepRow} {s : State} (he : s.EngineIdle) (hp : s.phase = .idle) (hi : s.idx.val = 0) :
    s.stepsDone row = 0 := by
  simp only [State.stepsDone, hp, WriteCtx.steps_of_idle he.1, ReadCtx.steps_of_idle he.2, hi]
  rfl

/-- What a SEQSTEP does to the acquisition's count: one more, or, for a NACK, a failure well before the end. -/
def Spends (s t : State) : Prop :=
  (t.seqstepsDone = s.seqstepsDone + 1 ∧ t.phase ≠ .stopFail ∧ t.step ≠ .failed ∧ t.step ≠ .idle)
    ∨ (t.phase = .stopFail ∧ t.step = s.step ∧ s.seqstepsDone + 2 < 760)

theorem Advances.spends {row : StepRow} {s t : State} (h : Advances row s t)
    (hrow : stepRow s.cfg s.step = some row) (hcfg : t.cfg = s.cfg) (hst : t.step = s.step) : Spends s t := by
  have hbefore := (seqstepsBefore_le_of_row hrow).1
  have hne : s.step ≠ .failed ∧ s.step ≠ .idle := by
    constructor <;> intro h0 <;> rw [h0] at hrow <;> cases hrow
  have hs := seqstepsDone_of_row hrow
  rcases h with ⟨hdone, hnf⟩ | ⟨hfail, hdone⟩
  · have ht := seqstepsDone_of_row (s := t) (by rw [hcfg, hst]; exact hrow)
    rw [hst] at ht
    exact .inl ⟨by omega, hnf, hst ▸ hne.1, hst ▸ hne.2⟩
  · exact .inr ⟨hfail, hst, by omega⟩

/-- The last SEQSTEP of a logical step enters the next. -/
theorem spends_of_entered {row : StepRow} {s t : State} (hrow : stepRow s.cfg s.step = some row)
    (hdone : s.stepsDone row + 1 = row.length) (hn : s.step.next = some t.step) (he : t.EngineIdle) (hi : t.idx = 0)
    (hp : t.phase = .idle ∨ t.phase = .start) : Spends s t := by
  have hs := seqstepsDone_of_row hrow
  have ht := seqstepsDone_of_entered he hi hp
  have hnext := seqstepsBefore_next hrow hn
  refine .inl ⟨by omega, by rcases hp with hp | hp <;> simp [hp], ?_, ?_⟩ <;> intro h0 <;> rw [h0] at hn <;>
    revert hn <;> cases s.step <;> nofun

theorem waitStep_spends {sleep : BusEvent} {s t : State} (hf : FlightInv (.wait sleep) s)
    (hrow : stepRow s.cfg s.step = some (.wait sleep)) (h : waitStep sleep s = .ok t) : Spends s t := by
  obtain ⟨_, hc, _, hbus, _⟩ := hf
  obtain ⟨hp, he⟩ := ((inconsistent_eq_false_iff _ _).1 hc).waiting rfl
  obtain ⟨nxt, hn, rfl⟩ := waitStep_cases h
  have hdone : s.stepsDone (.wait sleep) = 0 := stepsDone_of_wait he hp (hbus (.inl hp)).2
  exact spends_of_entered hrow (by rw [hdone]; rfl) hn he rfl (.inr rfl)

theorem phaseStop_spends {row : StepRow} {s t : State} (hf : FlightInv row s)
    (hrow : stepRow s.cfg s.step = some row) (hwait : row.isWait = false) (hp : s.phase = .stop)
    (h : phaseStop row s = .ok t) : Spends s t := by
  obtain ⟨_, _, _, _, _, _, hstop, _⟩ := hf
  obtain ⟨he, u, nxt, hu, hn, rfl⟩ := phaseStop_cases h
  obtain ⟨_, _, hw, hr⟩ := commit_unchanged hu
  have hphase : entryPhase nxt = .idle ∨ entryPhase nxt = .start := by cases nxt <;> simp [entryPhase]
  refine spends_of_entered hrow (stepsDone_of_stop he hwait hp (hstop hp)) hn ⟨?_, ?_⟩ rfl hphase
  · rw [State.enter_w, hw]; exact he.1
  · rw [State.enter_r, hr]; exact he.2

theorem seqDispatch_spends {row : StepRow} {s t : State} (hf : FlightInv row s) (he : EngineInv s)
    (hrow : stepRow s.cfg s.step = some row) (hnf : s.phase ≠ .stopFail) (h : seqDispatch row s = .ok t) :
    Spends s t := by
  have within (hst : t.step = s.step) (ha : Advances row s t) : Spends s t :=
    ha.spends hrow (seqDispatch_cfg h) hst
  have sends {byte : Byte} {succ : Phase} (hw : isWritePhase s.phase = true) (hp : writePhase byte succ s = .ok t) :
      Spends s t := within (writePhase_step hp) (writePhase_advances hf he hw hp)
  rcases seqDispatch_cases h with ⟨_, rfl, hw⟩ | ⟨hwait, ⟨hph, hp⟩ | ⟨hph, hp⟩ | ⟨_, _, _, hph, rfl, hp⟩ |
    ⟨_, _, hph, rfl, hp⟩ | ⟨_, _, hph, rfl, hp⟩ | ⟨hph, hp⟩ | ⟨hph, hp⟩ | ⟨hph, hp⟩ | ⟨hph, hp⟩ | ⟨hph, _⟩⟩
  · exact waitStep_spends hf hrow hw
  · refine within (phaseStart_step hp) ?_
    obtain ⟨_, rfl⟩ := (phaseStart_ok_iff _ _).1 hp
    exact .inl ⟨by simp only [State.stepsDone, hph, phaseOffset]; omega, nofun⟩
  · exact sends (hph ▸ rfl) hp
  · exact sends (hph ▸ rfl) hp
  · exact sends (hph ▸ rfl) hp
  · exact sends (hph ▸ rfl) hp
  · refine within (phaseRestart_step hp) ?_
    obtain ⟨_, rfl⟩ := (phaseRestart_ok_iff _ _).1 hp
    exact .inl ⟨by simp only [State.stepsDone, hph, phaseOffset]; omega, nofun⟩
  · exact sends (hph ▸ rfl) hp
  · exact within (phaseRead_step hp) (phaseRead_advances hf he hrow hph hp)
  · exact phaseStop_spends hf hrow hwait hph hp
  · exact absurd hph hnf

end Sys2Proof.Machine
end

/-! PROOFS. An acquisition runs to DONE or FAILED, and ACQUIRE is its SEQSTEPs (R204, R205). -/
section
namespace Sys2Proof.Machine

/-! ### The run of an acquisition -/

/-- An acquisition is in flight. -/
def InFlight (s : State) : Prop := s.step.resting = false

theorem resting_iff (st : Step) : st.resting = true ↔ st = .idle ∨ st = .done ∨ st = .failed := by
  cases st <;> simp [Step.resting]

theorem seqstepsDone_of_done {s : State} (h : s.step = .done) : s.seqstepsDone = 760 := by
  rw [State.seqstepsDone, h]
  rfl

/-- The counters bound the count, in any state. -/
theorem seqstepsDone_lt (s : State) : s.seqstepsDone < 777 := by
  have hbefore : s.step.seqstepsBefore ≤ 760 := by cases s.step <;> decide
  cases hrow : stepRow s.cfg s.step with
  | none =>
    have h : s.seqstepsDone = s.step.seqstepsBefore := by simp [State.seqstepsDone, hrow]
    omega
  | some row =>
    have hrest := (seqstepsBefore_le_of_row hrow).1
    have hoff : phaseOffset row s.phase ≤ 29 := by
      cases s.phase with
      | stop => simp only [phaseOffset]; split <;> omega
      | _ => simp [phaseOffset]
    have hw : s.w.steps ≤ 8 := by unfold WriteCtx.steps; split <;> omega
    have hr : s.r.steps ≤ 9 := by unfold ReadCtx.steps; split <;> omega
    have hi := s.idx.isLt
    rw [seqstepsDone_of_row hrow, State.stepsDone]
    omega

theorem seqstep_machineInv {s t : State} {r : SeqReturn} (hs : MachineInv s) (h : seqstep s = .ok (t, r)) :
    MachineInv t :=
  ⟨(Runs.seqstep h).engineInv hs.1, seqstep_sequencerInv hs.2 h⟩

/-- A SEQSTEP in flight answers, and spends one SEQSTEP. -/
theorem seqstep_of_inFlight {s : State} (hs : MachineInv s) (hfl : InFlight s) :
    ∃ t, seqstep s = .ok (t, t.step.seqReturn) ∧ MachineInv t
      ∧ (s.phase ≠ .stopFail → Spends s t) ∧ (s.phase = .stopFail → t.step = .failed) := by
  obtain ⟨row, hrow⟩ := Option.ne_none_iff_exists'.1
    (fun h0 => by rw [InFlight, (stepRow_none_iff s.cfg s.step).1 h0] at hfl; cases hfl)
  have hf := flightInv_of_sequencerInv hs.2 hrow
  obtain ⟨t, hd, ht⟩ := seqstep_ok_of_flight hrow hf
  refine ⟨t, ht, seqstep_machineInv hs ht, fun hp => seqDispatch_spends hf hs.1 hrow hp hd, fun hp => ?_⟩
  have hwait : row.isWait = false := by
    cases hw : row.isWait with
    | false => rfl
    | true => simp [(((inconsistent_eq_false_iff _ _).1 hf.2.1).waiting hw).1] at hp
  rw [seqDispatch_of_stopFail hwait hp] at hd
  rw [((phaseStopFail_ok_iff _ _).1 hd).2]

/-- From a legal state the acquisition runs to DONE, after the SEQSTEPs that are left, or fails before. -/
theorem acquisition_runs (m : Nat) {s : State} (hs : MachineInv s) (hfl : InFlight s) (hp : s.phase ≠ .stopFail)
    (hm : 777 ≤ s.seqstepsDone + m) :
    ∃ n v, SeqRun InFlight (n + 1) s v ∧ MachineInv v
      ∧ ((v.step = .done ∧ s.seqstepsDone + (n + 1) = 760) ∨ (v.step = .failed ∧ s.seqstepsDone + (n + 1) < 760)) := by
  induction m generalizing s with
  | zero => exact absurd (seqstepsDone_lt s) (by omega)
  | succ m ih =>
    obtain ⟨t, ht, hti, hspends, _⟩ := seqstep_of_inFlight hs hfl
    rcases hspends hp with ⟨hdone, hpt, hnf, hni⟩ | ⟨hpt, hst, hlt⟩
    · cases hr : t.step.resting with
      | true =>
        have hd : t.step = .done := (((resting_iff _).1 hr).resolve_left hni).resolve_right hnf
        have h760 := seqstepsDone_of_done hd
        exact ⟨0, t, .single hfl ht, hti, .inl ⟨hd, by omega⟩⟩
      | false =>
        obtain ⟨n, v, hrun, hvi, hv⟩ := ih hti hr hpt (by omega)
        rw [hdone] at hv
        refine ⟨n + 1, v, .step hfl ht hrun, hvi, ?_⟩
        exact hv.imp (And.imp_right fun h => by omega) (And.imp_right fun h => by omega)
    · have hflt : InFlight t := by rw [InFlight, hst]; exact hfl
      obtain ⟨u, hu, hui, _, hfail⟩ := seqstep_of_inFlight hti hflt
      exact ⟨1, u, .step hfl ht (.single hflt hu), hui, .inr ⟨hfail hpt, hlt⟩⟩

/-! ### The loop of ACQUIRE -/

theorem seqReturn_eq_running_iff (st : Step) : st.seqReturn = .running ↔ st ≠ .done ∧ st ≠ .failed := by
  cases st <;> simp [Step.seqReturn]

theorem seqReturn_of_inFlight {s : State} (h : InFlight s) : s.step.seqReturn = .running := by
  rw [seqReturn_eq_running_iff]
  constructor <;> intro h0 <;> rw [InFlight, h0] at h <;> cases h

/-- The loop makes the run's steps (R204). -/
theorem acquireLoop_of_run {n m : Nat} {s v : State} (h : SeqRun InFlight (n + 1) s v) (hm : n < m)
    (hv : v.step.seqReturn ≠ .running) : acquireLoop m s = .ok v := by
  induction n generalizing s m with
  | zero =>
    obtain ⟨m, rfl⟩ := Nat.exists_eq_add_one_of_ne_zero (Nat.ne_zero_of_lt hm)
    cases h with
    | step _ hu hrun =>
      cases hrun
      obtain ⟨_, _, _, _, _, rfl⟩ := (seqstep_ok_iff _ _ _).1 hu
      exact (acquireLoop_succ_ok_iff _ _ _).2 ⟨_, _, hu, by rw [if_neg hv]⟩
  | succ n ih =>
    obtain ⟨m, rfl⟩ := Nat.exists_eq_add_one_of_ne_zero (Nat.ne_zero_of_lt hm)
    cases h with
    | @step _ _ u _ _ _ hu hrun =>
      obtain ⟨_, _, _, _, _, rfl⟩ := (seqstep_ok_iff _ _ _).1 hu
      have hflu : InFlight u := by cases hrun; assumption
      refine (acquireLoop_succ_ok_iff _ _ _).2 ⟨u, _, hu, ?_⟩
      rw [if_pos (seqReturn_of_inFlight hflu)]
      exact ih hrun (by omega)

/-! ### COMPENSATE after DONE -/

/-- A finished acquisition has the calculator's inputs (R68, R279). -/
theorem compInput_of_done {s : State} (h : PopulatedBefore Step.done.rank s) : ∃ i, s.compInput = some i := by
  obtain ⟨_, h1, h2, h3, h4, h5, h6, hb1, hb2, hmb, hmc, hmd, hut, hup⟩ := h
  obtain ⟨ac1, h1⟩ := Option.isSome_iff_exists.1 (h1 (by decide))
  obtain ⟨ac2, h2⟩ := Option.isSome_iff_exists.1 (h2 (by decide))
  obtain ⟨ac3, h3⟩ := Option.isSome_iff_exists.1 (h3 (by decide))
  obtain ⟨ac4, h4⟩ := Option.isSome_iff_exists.1 (h4 (by decide))
  obtain ⟨ac5, h5⟩ := Option.isSome_iff_exists.1 (h5 (by decide))
  obtain ⟨ac6, h6⟩ := Option.isSome_iff_exists.1 (h6 (by decide))
  obtain ⟨b1, hb1⟩ := Option.isSome_iff_exists.1 (hb1 (by decide))
  obtain ⟨b2, hb2⟩ := Option.isSome_iff_exists.1 (hb2 (by decide))
  obtain ⟨mb, hmb⟩ := Option.isSome_iff_exists.1 (hmb (by decide))
  obtain ⟨mc, hmc⟩ := Option.isSome_iff_exists.1 (hmc (by decide))
  obtain ⟨md, hmd⟩ := Option.isSome_iff_exists.1 (hmd (by decide))
  obtain ⟨ut, hut⟩ := Option.isSome_iff_exists.1 (hut (by decide))
  obtain ⟨up, hup⟩ := Option.isSome_iff_exists.1 (hup (by decide))
  simp [State.compInput, h1, h2, h3, h4, h5, h6, hb1, hb2, hmb, hmc, hmd, hut, hup]

theorem exec_acquire {s t : State} (hc : s.Clear) (h : acquireOp s = .ok t) :
    exec .acquire s = .next (t.returning (.result t.result)) :=
  exec_of_body_ok hc (bind_returning_ok_iff.2 ⟨_, h, rfl⟩)

theorem exec_compensate {s t : State} (hc : s.Clear) (h : compensate s = .ok t) :
    exec .compensate s = .next (t.returning (.result t.result)) :=
  exec_of_body_ok hc (bind_returning_ok_iff.2 ⟨_, h, rfl⟩)

/-- ACQUIRE after a run to DONE computes what COMPENSATE computes there. -/
theorem acquire_eq_compensate {s v : State} {x : Ret} (hc : s.Clear) (hcv : v.Clear) (hb : v.begun = true)
    (hi : MachineInv v) (hd : v.step = .done) (hstart : astart s = .ok s.clearAcquisition)
    (hloop : acquireLoop acquireBound s.clearAcquisition = .ok v) :
    exec .acquire s = exec .compensate (v.returning x) := by
  obtain ⟨i, hin⟩ := compInput_of_done (hi.2.2 hd)
  have hr : v.step.resting = true := (resting_iff _).2 (.inr (.inl hd))
  have hcomp : compensate v = .ok (v.setCompResult (compResult (comp i v.cfg.oss.toNat))) :=
    (compensate_ok_iff _ _).2 ⟨hb, hr, i, hin, rfl⟩
  have hcomp' : compensate (v.returning x) = .ok ((v.returning x).setCompResult (compResult (comp i v.cfg.oss.toNat))) :=
    (compensate_ok_iff _ _).2 ⟨hb, hr, i, hin, rfl⟩
  have hacq : acquireOp s = .ok (v.setCompResult (compResult (comp i v.cfg.oss.toNat))) :=
    (acquireOp_ok_iff _ _).2 ⟨_, v, hstart, hloop, by rw [if_neg (by simp [hd])]; exact hcomp⟩
  rw [exec_acquire hc hacq, exec_compensate (s := v.returning x) hcv hcomp']
  rfl

/-- ACQUIRE after a run to FAILED delivers the recorded failure (R203). -/
theorem acquire_of_failed {s v : State} (hc : s.Clear) (hf : v.step = .failed) (hstart : astart s = .ok s.clearAcquisition)
    (hloop : acquireLoop acquireBound s.clearAcquisition = .ok v) :
    exec .acquire s = .next (v.setBusError.returning (.result v.setBusError.result)) :=
  exec_acquire hc ((acquireOp_ok_iff _ _).2 ⟨_, v, hstart, hloop, by rw [if_pos hf]⟩)

/-- Settles O53: the run from ASTART's state is the loop of ACQUIRE, and ends populated or with the failure recorded. -/
theorem acquireIsStepped : Obligations.AcquireIsStepped := by
  intro s h
  obtain ⟨⟨⟨hc, hb, hr⟩, he⟩, hl⟩ := h
  have hstart : astart s = .ok s.clearAcquisition := (astart_ok_iff _ _).2 ⟨hb, hr, he, hl, rfl⟩
  have hexec : exec .astart s = .next (s.clearAcquisition.returning .nothing) :=
    exec_of_body_ok hc (bind_returning_ok_iff.2 ⟨_, hstart, rfl⟩)
  have hinv : MachineInv s.clearAcquisition :=
    ⟨(Runs.astart hstart).engineInv (engineInv_of_read_idle he.2 (by simp [he.1]) (by simp [he.1])), astart_sequencerInv hstart⟩
  have hzero : s.clearAcquisition.seqstepsDone = 0 := seqstepsDone_of_entered he rfl (.inr rfl)
  obtain ⟨n, v, hrun, hvi, hv⟩ := acquisition_runs 777 hinv rfl nofun (by omega)
  rw [hzero, Nat.zero_add] at hv
  obtain ⟨⟨x, hx⟩, hbefore⟩ := hrun.seqsteps hc .nothing
  have hcv : v.Clear := hrun.sameHost.clear hc
  refine ⟨n + 1, _, _, hexec, hx, fun k hk => ?_, ?_⟩
  · obtain ⟨q, y, hq, hfl, _⟩ := hbefore k hk
    exact ⟨_, hq, hfl⟩
  · have hloop (hend : v.step = .done ∨ v.step = .failed) (hn : n < acquireBound) :
        acquireLoop acquireBound s.clearAcquisition = .ok v :=
      acquireLoop_of_run hrun hn fun h =>
        hend.elim ((seqReturn_eq_running_iff _).1 h).1 ((seqReturn_eq_running_iff _).1 h).2
    rcases hv with ⟨hd, hn⟩ | ⟨hf, hn⟩
    · have hb : v.begun = true := hrun.sameHost.begun.trans hb
      exact .inl ⟨hd, hn, acquire_eq_compensate hc hcv hb hvi hd hstart (hloop (.inl hd) (by simp only [acquireBound]; omega))⟩
    · exact .inr ⟨hf, hn, acquire_of_failed hc hf hstart (hloop (.inr hf) (by simp only [acquireBound]; omega))⟩

end Sys2Proof.Machine
end

/-! PROOFS. Every step keeps the data line released while a read samples or is about to answer (R121, R130). -/
section
namespace Sys2Proof.Machine

/-- With the read sub-machine idle, the data line is free to move. -/
theorem releasedInv_of_idle {s : State} (h : s.r.state = .idle) : ReleasedInv s := by
  unfold ReleasedInv
  simp [h]

/-! ### The byte sub-machines -/

/-- A write step drives the data line, but a busy write sub-machine means an idle read one (R48.5). -/
theorem wstep_releasedInv {s t : State} {r : WReturn} (hs : EngineInv s) (h : wstep s = .ok (t, r)) :
    ReleasedInv t := by
  have hw : s.w.state ≠ .idle := fun hi => by simp [(wstep_error_iff s .notLoaded).2 ⟨hi, rfl⟩] at h
  rw [wstep_frame h]
  exact releasedInv_of_idle (hs.read_idle hw)

/-- Priming releases the data line, a bit step leaves it as it is, and a slot ends the read. -/
theorem rstep_releasedInv {s t : State} {r : RReturn} (hs : ReleasedInv s) (h : rstep s = .ok (t, r)) :
    ReleasedInv t := by
  rcases rstep_cases h with ⟨_, rfl, _⟩ | ⟨hr, rfl, _⟩ | ⟨_, rfl, _⟩ | ⟨_, rfl, _⟩
  · rw [readPrime_eq]; exact fun _ => rfl
  · rw [readBit_eq]; exact fun _ => hs (.inl hr)
  · rw [readSendAck_eq]; exact fun _ => rfl
  · rw [readSendNack_eq]; exact fun _ => rfl

theorem rsteps_releasedInv {n : Nat} {s t : State} {r : RReturn} (hs : ReleasedInv s)
    (h : rsteps n s = .ok (t, r)) : ReleasedInv t := by
  induction n generalizing s with
  | zero => cases h; exact hs
  | succ n ih =>
    obtain ⟨u, q, hu, h⟩ := (rsteps_succ_ok_iff _ _ _ _).1 h
    exact ih (rstep_releasedInv hs hu) h

/-! ### The Sequencer -/

theorem writePhase_r {byte : Byte} {succ : Phase} {s t : State} (h : writePhase byte succ s = .ok t) : t.r = s.r := by
  rcases writePhase_cases h with ⟨_, rfl⟩ | ⟨_, _, rfl⟩ | ⟨_, _, rfl⟩ | ⟨_, _, rfl⟩
  · rw [writeBit_eq]
  · rw [writeBit_eq]
  · rw [ackCheck_eq]
  · rw [ackCheck_eq]; rfl

theorem phaseStop_r {row : StepRow} {s t : State} (h : phaseStop row s = .ok t) : t.r = s.r := by
  obtain ⟨_, u, nxt, hu, _, rfl⟩ := phaseStop_cases h
  rw [State.enter_r, commit_frame hu]

/-- The phase READ moves the lines by the read sub-machine's steps alone; storing a byte moves none. -/
theorem phaseRead_releasedInv {row : StepRow} {s t : State} (hs : ReleasedInv s) (h : phaseRead row s = .ok t) :
    ReleasedInv t := by
  rcases phaseRead_cases h with ⟨_, rfl⟩ | ⟨hr, rfl⟩ | ⟨hr, rfl⟩ | ⟨_, hb⟩ | ⟨_, hb⟩
  · rw [readPrime_eq]; exact fun _ => rfl
  · rw [readPrime_eq]; exact fun _ => rfl
  · rw [readBit_eq]; exact fun _ => hs (.inl hr)
  · obtain ⟨b, _, rfl⟩ := storeByte_cases hb
    rw [readSendAck_eq]; exact fun _ => rfl
  · obtain ⟨b, _, rfl⟩ := storeByte_cases hb
    rw [readSendNack_eq]; exact fun _ => rfl

/-- Every phase but READ passes the consistency check only with the read sub-machine idle (R196), and leaves it idle. -/
theorem seqDispatch_releasedInv {row : StepRow} {s t : State} (hc : Consistent row s) (hs : ReleasedInv s)
    (h : seqDispatch row s = .ok t) : ReleasedInv t := by
  have hwrite {byte : Byte} {succ : Phase} (hp : isWritePhase s.phase = true) (h : writePhase byte succ s = .ok t) :
      ReleasedInv t := releasedInv_of_idle (writePhase_r h ▸ hc.sending hp)
  rcases seqDispatch_cases h with ⟨sleep, rfl, h⟩ | ⟨_, ⟨_, h⟩ | ⟨hp, h⟩ | ⟨_, _, _, hp, _, h⟩ | ⟨_, _, hp, _, h⟩ |
    ⟨_, _, hp, _, h⟩ | ⟨_, h⟩ | ⟨hp, h⟩ | ⟨_, h⟩ | ⟨hp, h⟩ | ⟨_, h⟩⟩
  · obtain ⟨nxt, _, rfl⟩ := waitStep_cases h
    exact releasedInv_of_idle (hc.waiting rfl).2.2
  · obtain ⟨he, rfl⟩ := (phaseStart_ok_iff _ _).1 h
    exact releasedInv_of_idle he.2
  · exact hwrite (hp ▸ rfl) h
  · exact hwrite (hp ▸ rfl) h
  · exact hwrite (hp ▸ rfl) h
  · exact hwrite (hp ▸ rfl) h
  · obtain ⟨he, rfl⟩ := (phaseRestart_ok_iff _ _).1 h
    exact releasedInv_of_idle he.2
  · exact hwrite (hp ▸ rfl) h
  · exact phaseRead_releasedInv hs h
  · exact releasedInv_of_idle (phaseStop_r h ▸ (phaseStop_cases h).1.2)
  · obtain ⟨he, rfl⟩ := (phaseStopFail_ok_iff _ _).1 h
    exact releasedInv_of_idle he.2

theorem seqstep_releasedInv {s t : State} {r : SeqReturn} (hs : ReleasedInv s) (h : seqstep s = .ok (t, r)) :
    ReleasedInv t := by
  obtain ⟨_, row, _, hi, hd, _⟩ := (seqstep_ok_iff _ _ _).1 h
  exact seqDispatch_releasedInv ((inconsistent_eq_false_iff _ _).1 hi) hs hd

theorem acquireLoop_releasedInv {n : Nat} {s t : State} (hs : ReleasedInv s) (h : acquireLoop n s = .ok t) :
    ReleasedInv t := by
  induction n generalizing s with
  | zero => cases h; exact hs
  | succ n ih =>
    obtain ⟨u, r, hu, h⟩ := (acquireLoop_succ_ok_iff _ _ _).1 h
    have hu : ReleasedInv u := seqstep_releasedInv hs hu
    split at h
    · exact ih hu h
    · exact h ▸ hu

theorem compensate_releasedInv {s t : State} (hs : ReleasedInv s) (h : compensate s = .ok t) : ReleasedInv t := by
  obtain ⟨_, _, i, _, rfl⟩ := (compensate_ok_iff _ _).1 h
  exact hs

theorem astart_releasedInv {s t : State} (h : astart s = .ok t) : ReleasedInv t := by
  obtain ⟨_, _, he, _, rfl⟩ := (astart_ok_iff _ _).1 h
  exact releasedInv_of_idle he.2

theorem acquireOp_releasedInv {s t : State} (h : acquireOp s = .ok t) : ReleasedInv t := by
  obtain ⟨u, v, hu, hv, h⟩ := (acquireOp_ok_iff _ _).1 h
  have hv : ReleasedInv v := acquireLoop_releasedInv (astart_releasedInv hu) hv
  split at h
  · exact h ▸ hv
  · exact compensate_releasedInv hv h

/-! ### Steps -/

/-- A wave needs an idle engine and a load moves no line; the rest are the sub-machines' steps and the Sequencer's. -/
theorem Runs.releasedInv {s u : State} (he : EngineInv s) (hs : ReleasedInv s) (h : Runs s u) : ReleasedInv u := by
  cases h with
  | beginLines h =>
    obtain ⟨_, hidle, rfl⟩ := (beginLines_ok_iff _ _).1 h
    exact releasedInv_of_idle hidle.2
  | start _ _ h =>
    obtain ⟨hidle, rfl⟩ := (startCondition_ok_iff _ _).1 h
    exact releasedInv_of_idle hidle.2
  | stop _ _ h =>
    obtain ⟨hidle, rfl⟩ := (stopCondition_ok_iff _ _).1 h
    exact releasedInv_of_idle hidle.2
  | wload _ _ h =>
    obtain ⟨_, rfl⟩ := (wload_ok_iff _ _ _ _ _).1 h
    exact hs
  | wstep _ _ h => exact wstep_releasedInv he h
  | rload _ _ h =>
    obtain ⟨_, rfl⟩ := (rload_ok_iff _ _ _ _).1 h
    unfold ReleasedInv
    simp
  | rstep _ _ h => exact rstep_releasedInv hs h
  | astart h => exact astart_releasedInv h
  | seqstep h => exact seqstep_releasedInv hs h
  | compensate h => exact compensate_releasedInv hs h
  | acquire h => exact acquireOp_releasedInv h
  | sentByte _ _ hidle h =>
    have hf : SendFrame _ u := wsteps_sendFrame (fun _ => rfl) (le_refl 8) h
    rw [hf]
    exact releasedInv_of_idle hidle.2
  | receivedByte _ _ _ h => exact rsteps_releasedInv (s := s.answerNext _) hs h
  | sampledSlot _ _ _ h => exact wstep_releasedInv (s := s.answerNext _) he h

/-- Settles O15: beside R48's invariants of the engine, every procedure keeps the line released for a read. -/
theorem dataLineReleasedForRead : Obligations.DataLineReleasedForRead := fun _ _ he hs h =>
  (step_keeps (P := fun s => EngineInv s ∧ ReleasedInv s) (fun _ _ _ _ _ hp => hp)
    (fun hp hr => ⟨hr.engineInv hp.1, hr.releasedInv hp.1 hp.2⟩) ⟨he, hs⟩ h).2

end Sys2Proof.Machine
end

/-! PROOFS. BEGIN, START and STOP: their waves, and their faults (R125 to R128). -/
section
namespace Sys2Proof.Machine

/-! ### The faults -/

theorem beginLines_busy {s : State} (h : s.step.resting = false) : beginLines s = .error .busy := by
  simp [beginLines, h]

theorem beginLines_engineBusy {s : State} (hr : s.step.resting = true) (he : ¬ s.EngineIdle) :
    beginLines s = .error .engineBusy := by
  simp [beginLines, hr, mt s.engineIdle_iff.1 he]

theorem startCondition_engineBusy {s : State} (he : ¬ s.EngineIdle) : startCondition s = .error .engineBusy := by
  simp [startCondition, mt s.engineIdle_iff.1 he]

theorem stopCondition_engineBusy {s : State} (he : ¬ s.EngineIdle) : stopCondition s = .error .engineBusy := by
  simp [stopCondition, mt s.engineIdle_iff.1 he]

/-! ### The obligations -/

/-- Settles O21: BEGIN emits its wave where it is admitted, and its two checks come in the order of R125. -/
theorem beginEffect : Obligations.BeginEffect := by
  intro s hc
  refine ⟨fun hr he => ?_, fun hr => ?_, fun hr he => ?_⟩
  · exact exec_of_body_ok hc (bind_returning_ok_iff.2 ⟨_, (beginLines_ok_iff _ _).2 ⟨hr, he, rfl⟩, rfl⟩)
  · exact exec_of_body_error hc (except_bind_error_iff.2 (.inl (beginLines_busy hr)))
  · exact exec_of_body_error hc (except_bind_error_iff.2 (.inl (beginLines_engineBusy hr he)))

/-- Settles O22: past the host guard, the engine check decides between the wave and the fault. -/
theorem startStopEffect : Obligations.StartStopEffect := by
  intro s hm
  have ⟨hc, hb, hr⟩ := hm
  refine ⟨fun he => ⟨?_, ?_⟩, fun he => ⟨?_, ?_⟩⟩
  · exact exec_of_body_ok hc (guard_bind_returning_ok_iff.2 ⟨hb, hr, _, (startCondition_ok_iff _ _).2 ⟨he, rfl⟩, rfl⟩)
  · exact exec_of_body_ok hc (guard_bind_returning_ok_iff.2 ⟨hb, hr, _, (stopCondition_ok_iff _ _).2 ⟨he, rfl⟩, rfl⟩)
  · exact exec_of_body_error hc ((guard_bind hm _).trans (except_bind_error_iff.2 (.inl (startCondition_engineBusy he))))
  · exact exec_of_body_error hc ((guard_bind hm _).trans (except_bind_error_iff.2 (.inl (stopCondition_engineBusy he))))

end Sys2Proof.Machine
end

/-! PROOFS. WLOAD, RLOAD, WSTEP and RSTEP as the host invokes them: what they leave, and their faults (R141 to R145, R161,
R166). -/
section
namespace Sys2Proof.Machine

/-! ### Running them -/

/-- Past the host guard, the fault of a body's first procedure is the body's (R131). -/
theorem guard_bind_error {α : Type} {s : State} {x : Except Fault α} {f : α → Except Fault State} {e : Fault}
    (h : s.HostMay) (hx : x = .error e) : (hostGuard s >>= fun _ => x >>= f) = .error e :=
  (guard_bind h _).trans (except_bind_error_iff.2 (.inl hx))

/-- WSTEP stores no more than its procedure leaves and returns. -/
theorem exec_wstep_of_ok {s t : State} {r : WReturn} (h : s.HostMay) (hw : wstep s = .ok (t, r)) :
    exec .wstep s = .next { t with ret := .wstep r } :=
  exec_wstep hw h s.ret

theorem countDown_of_val_eq_succ {m n : Fin 9} (h : m.val = n.val + 1) : countDown m = n :=
  Fin.ext (by rw [countDown_val, h, Nat.add_sub_cancel])

/-! ### The obligations -/

/-- Settles O23: past the host guard, the engine check decides between the load and the fault. -/
theorem loadEffect : Obligations.LoadEffect := by
  intro s byte sendNack succ err hm
  refine ⟨fun he => ⟨?_, ?_⟩, fun he => ⟨?_, ?_⟩⟩
  · have hload := exec_wload ⟨hm, he⟩ byte succ err
    rw [sent_zero] at hload
    exact hload
  · exact exec_rload ⟨hm, he⟩ sendNack succ
  · exact exec_of_body_error hm.1 (guard_bind_error hm ((wload_error_iff _ _ _ _ _).2 ⟨he, rfl⟩))
  · exact exec_of_body_error hm.1 (guard_bind_error hm ((rload_error_iff _ _ _ _).2 ⟨he, rfl⟩))

/-- Settles O24: with a bit left WSTEP is a bit step, else an acknowledge check, whose draw is `ackDraw`. -/
theorem wstepEffect : Obligations.WstepEffect := by
  intro s hm
  refine ⟨fun n hs hn => ?_, fun hs => ⟨ackDraw s, ?_⟩⟩
  · have hne : s.w.bits ≠ 0 := fun h0 => by simp [h0] at hn
    have hbit := exec_wstep_of_ok hm (wstep_of_shift hs hne)
    rw [writeBit_eq, countDown_of_val_eq_succ hn] at hbit
    exact hbit
  · have hcheck := wstep_of_check hs
    rw [ackCheck_eq] at hcheck
    exact exec_wstep_of_ok hm hcheck

/-- Settles O28: an idle sub-machine is the one thing a step procedure faults on. -/
theorem unloadedStepFaults : Obligations.UnloadedStepFaults := by
  intro s hm
  refine ⟨fun hs => ?_, fun hs => ?_⟩
  · exact exec_of_body_error hm.1 (guard_bind_error hm ((wstep_error_iff _ _).2 ⟨hs, rfl⟩))
  · exact exec_of_body_error hm.1 (guard_bind_error hm ((rstep_error_iff _ _).2 ⟨hs, rfl⟩))

end Sys2Proof.Machine
end

/-! PROOFS. RSTEP as the host invokes it: the priming step, a bit, and the two acknowledge slots (R162 to R165). -/
section
namespace Sys2Proof.Machine

/-- RSTEP stores no more than its procedure leaves and returns. -/
theorem exec_rstep_of_ok {s t : State} {r : RReturn} (h : s.HostMay) (hr : rstep s = .ok (t, r)) :
    exec .rstep s = .next { t with ret := .rstep r } :=
  exec_rstep hr h s.ret

/-- A sampled bit is ORed in as the number it spells (R163). -/
theorem shiftIn_eq_or_ite (byte : Byte) (b : Bit) : shiftIn byte b = (byte <<< 1) ||| (if b then 1 else 0) := by
  cases b <;> rfl

theorem readCountAfter_of_val_eq_succ {s : State} {n : Fin 9} (h : s.r.bits.val = n.val + 1) : readCountAfter s = n :=
  have hne : s.r.bits ≠ 0 := fun h0 => by simp [h0] at h
  (readCountAfter_of_ne hne).trans (countDown_of_val_eq_succ h)

/-- Settles O26: the priming step samples nothing; a bit step with a bit left counts down, and its draw is `readDraw`. -/
theorem rstepReadsBits : Obligations.RstepReadsBits := by
  intro s hm
  refine ⟨fun hs => ?_, fun n hs hn => ⟨readDraw s, ?_⟩⟩
  · have hprime := exec_rstep_of_ok hm (rstep_of_priming hs)
    rw [← readPrime_eq_received, readPrime_eq] at hprime
    exact hprime
  · have hbit := exec_rstep_of_ok hm (rstep_of_reading hs)
    rw [readBit_eq, readCountAfter_of_val_eq_succ hn, shiftIn_eq_or_ite] at hbit
    exact hbit

/-- Settles O27: each acknowledge state is the slot one of the two choices of the load leads to (R168). -/
theorem rstepAnswersByte : Obligations.RstepAnswersByte := by
  intro s hm
  refine ⟨fun hs => ?_, fun hs => ?_⟩
  · exact exec_rstep_of_ok hm (rstep_of_slot (nack := false) hs)
  · exact exec_rstep_of_ok hm (rstep_of_slot (nack := true) hs)

end Sys2Proof.Machine
end

/-! PROOFS. While an acquisition is in flight, and how one is started (R183, R209). -/
section
namespace Sys2Proof.Machine

/-! ### ASTART's checks (R183) -/

theorem astart_busy {s : State} (hb : s.begun = true) (hr : s.step.resting = false) : astart s = .error .busy := by
  simp [astart, hb, hr]

theorem astart_engineBusy {s : State} (hb : s.begun = true) (hr : s.step.resting = true) (he : ¬ s.EngineIdle) :
    astart s = .error .engineBusy := by
  simp [astart, hb, hr, mt s.engineIdle_iff.1 he]

theorem astart_busNotIdle {s : State} (hb : s.begun = true) (hr : s.step.resting = true) (he : s.EngineIdle)
    (hl : ¬ s.BusIdle) : astart s = .error .busNotIdle := by
  have hl : s.lines ≠ ⟨some true, some true⟩ := hl
  simp [astart, hb, hr, s.engineIdle_iff.2 he, hl]

theorem astart_ok {s : State} (h : s.MayAcquire) : astart s = .ok s.clearAcquisition := by
  obtain ⟨⟨⟨_, hb, hr⟩, he⟩, hl⟩ := h
  exact (astart_ok_iff _ _).2 ⟨hb, hr, he, hl, rfl⟩

theorem exec_astart {s : State} (h : s.MayAcquire) : exec .astart s = .next (s.clearAcquisition.returning .nothing) :=
  exec_of_body_ok h.1.1.1 (bind_returning_ok_iff.2 ⟨_, astart_ok h, rfl⟩)

/-- ASTART and ACQUIRE both begin with `astart()`, and raise what it raises (R204). -/
theorem exec_of_astart_error {s : State} {f : Fault} (hc : s.Clear) (h : astart s = .error f) :
    ∀ i ∈ [Instr.astart, .acquire], exec i s = .next (s.raise f) := by
  have hop : acquireOp s = .error f := except_bind_error_iff.2 (.inl h)
  intro i hi
  simp only [List.mem_cons, List.not_mem_nil, or_false] at hi
  rcases hi with rfl | rfl
  · exact exec_of_body_error hc (except_bind_error_iff.2 (.inl h))
  · exact exec_of_body_error hc (except_bind_error_iff.2 (.inl hop))

/-- Settles O32: the four checks come in the order of R183, and past them the acquisition's fields alone are written. -/
theorem astartEffect : Obligations.AstartEffect := by
  intro s hc
  refine ⟨exec_astart, fun i hi => ⟨fun hb => ?_, fun hb hr => ?_, fun hb hr he => ?_, fun hb hr he hl => ?_⟩⟩
  · exact exec_of_astart_error hc (astart_notBegun hb) i hi
  · exact exec_of_astart_error hc (astart_busy hb hr) i hi
  · exact exec_of_astart_error hc (astart_engineBusy hb hr he) i hi
  · exact exec_of_astart_error hc (astart_busNotIdle hb hr he hl) i hi

/-! ### In flight (R209) -/

theorem compensate_busy {s : State} (hb : s.begun = true) (hr : s.step.resting = false) :
    compensate s = .error .busy := by
  simp [compensate, hb, hr]

theorem execBody_inFlight {i : Instr} {s : State} (hi : i ≠ .seqstep) (hb : s.begun = true)
    (hr : s.step.resting = false) : execBody i s = .error .busy := by
  have hg : hostGuard s = .error .busy := hostGuard_busy hb hr
  have hop : acquireOp s = .error .busy := except_bind_error_iff.2 (.inl (astart_busy hb hr))
  cases i with
  | seqstep => exact absurd rfl hi
  | beginBus => exact except_bind_error_iff.2 (.inl (beginLines_busy hr))
  | astart => exact except_bind_error_iff.2 (.inl (astart_busy hb hr))
  | compensate => exact except_bind_error_iff.2 (.inl (compensate_busy hb hr))
  | acquire => exact except_bind_error_iff.2 (.inl hop)
  | start | stop | wload | wstep | rload | rstep | addrW | addrR | regSelect | cmdTemp | cmdPres | data | ack | nack =>
    exact except_bind_error_iff.2 (.inl hg)

/-- Settles O9: every body but SEQSTEP's asks for a resting step before it does anything. -/
theorem inFlightOnlySeqstep : Obligations.InFlightOnlySeqstep :=
  fun _ _ hi hc hb hr => exec_of_body_error hc (execBody_inFlight hi hb hr)

end Sys2Proof.Machine
end

/-! PROOFS. What one SEQSTEP does in each phase (R184 to R199). -/
section
namespace Sys2Proof.Machine

/-! ### Running SEQSTEP -/

/-- A SEQSTEP whose dispatch answers stores what the step reached returns (R208). -/
theorem exec_seqstep_of_dispatch {row : StepRow} {s t : State} (hc : s.Clear) (hb : s.begun = true)
    (hrow : stepRow s.cfg s.step = some row) (hcons : Consistent row s) (hd : seqDispatch row s = .ok t) :
    exec .seqstep s = .next { t with ret := .seqstep t.step.seqReturn } :=
  exec_seqstep (seqstep_of_dispatch hb hrow hcons hd) hc s.ret

/-- Within a logical step that return value is RUNNING. -/
theorem exec_seqstep_within {row : StepRow} {p : Phase} {s t : State} (h : s.InStep row p) (hcons : Consistent row s)
    (hd : seqDispatch row s = .ok t) (hst : t.step = s.step) :
    exec .seqstep s = .next { t with ret := .seqstep .running } := by
  obtain ⟨hc, hb, hrow, _⟩ := h
  have hret : t.step.seqReturn = .running :=
    seqReturn_of_inFlight (show t.step.resting = false from hst ▸ resting_eq_false_of_row hrow)
  rw [exec_seqstep_of_dispatch hc hb hrow hcons hd, hret]

theorem exec_seqstep_error {s : State} {f : Fault} (hc : s.Clear) (h : seqstep s = .error f) :
    exec .seqstep s = .next (s.raise f) :=
  exec_of_body_error hc (except_bind_error_iff.2 (.inl h))

/-! ### Start and stop conditions (R185, R190, R195) -/

/-- Settles O33: both phases emit the same wave, and leave the step. -/
theorem seqstepStarts : Obligations.SeqstepStarts := by
  intro s row he
  refine ⟨fun h => ?_, fun h hrd => ?_⟩ <;> obtain ⟨_, _, _, hwait, hp⟩ := id h
  · have hcons : Consistent row s :=
      consistent_of_engineIdle he hwait (by simp [hp]) (by simp [hp]) (by simp [hp]) (by simp [hp])
    exact exec_seqstep_within h hcons
      ((seqDispatch_of_start hwait hp).trans ((phaseStart_ok_iff _ _).2 ⟨he, rfl⟩)) rfl
  · have hcons : Consistent row s :=
      consistent_of_engineIdle he hwait (by simp [hp]) (by simp [hp]) (fun _ => hrd) (by simp [hp])
    exact exec_seqstep_within h hcons
      ((seqDispatch_of_restart hwait hp).trans ((phaseRestart_ok_iff _ _).2 ⟨he, rfl⟩)) rfl

/-- Settles O37: the failure's stop condition. -/
theorem seqstepStopFail : Obligations.SeqstepStopFail := by
  intro s row ⟨hc, hb, hrow, hwait, hp⟩ he
  have hcons : Consistent row s :=
    consistent_of_engineIdle he hwait (by simp [hp]) (by simp [hp]) (by simp [hp]) (by simp [hp])
  exact exec_seqstep_of_dispatch hc hb hrow hcons
    ((seqDispatch_of_stopFail hwait hp).trans ((phaseStopFail_ok_iff _ _).2 ⟨he, rfl⟩))

/-! ### Waits (R199) -/

theorem consistent_of_wait {row : StepRow} {s : State} (hwait : row.isWait = true) (hp : s.phase = .idle)
    (he : s.EngineIdle) : Consistent row s :=
  ⟨by simp [hwait], fun _ => ⟨hp, he⟩, by simp [hp], by simp [hp], by simp [hp], by simp [hp, isWritePhase],
    by simp [hp], by simp [hp]⟩

theorem waitStep_of_next {sleep : BusEvent} {s : State} {nxt : Step} (hn : s.step.next = some nxt) :
    waitStep sleep s = .ok ((s.emit sleep).enter nxt .start) := by
  simp [waitStep, hn]

theorem exec_seqstep_wait {sleep : BusEvent} {s : State} {nxt : Step} (hc : s.Clear) (hb : s.begun = true)
    (hp : s.phase = .idle) (he : s.EngineIdle) (hrow : stepRow s.cfg s.step = some (.wait sleep))
    (hn : s.step.next = some nxt) :
    exec .seqstep s = .next { (s.emit sleep).enter nxt .start with ret := .seqstep nxt.seqReturn } :=
  exec_seqstep_of_dispatch hc hb hrow (consistent_of_wait rfl hp he) (waitStep_of_next hn)

/-- Settles O38: each wait has its row and its successor in the tables of R181 and R182. -/
theorem seqstepWaits : Obligations.SeqstepWaits := by
  intro s hc hb hp he
  refine ⟨fun hst => ?_, fun hst => ?_⟩
  · exact exec_seqstep_wait hc hb hp he (by rw [hst]; rfl) (by rw [hst]; rfl)
  · exact exec_seqstep_wait hc hb hp he (by rw [hst]; rfl) (by rw [hst]; rfl)

/-! ### A byte sent (R186) -/

/-- In a phase that sends a byte, the check asks for an idle read sub-machine alone. -/
theorem consistent_of_writeItem_read_idle {row : StepRow} {s : State} {x : Byte × Phase} (hwait : row.isWait = false)
    (hr : s.r.state = .idle) (hi : writeItem s.cfg row s.phase = some x) : Consistent row s :=
  consistent_of_sending (s := { s with w := { s.w with state := .idle } })
    (consistent_of_writeItem hwait ⟨rfl, hr⟩ hi) (writeItem_fits hi).1 rfl rfl

/-- The state after a loaded byte's first bit (R186). -/
theorem sent_one (s : State) (byte : Byte) (succ err : Phase) :
    s.sent byte succ err 1 = { s with
      lines := ⟨some false, some (byte.getLsbD 7)⟩
      trace := s.trace ++ writeBitWave (byte.getLsbD 7)
      w := ⟨.shift, byte <<< 1, 7, succ, err⟩ } := by
  rw [← writeBit_sent s byte succ err (n := 0) (by decide), sent_zero, writeBit_eq]
  rfl

theorem writePhase_of_shift {s : State} (hs : s.w.state = .shift) (hn : s.w.bits ≠ 0) (byte : Byte) (succ : Phase) :
    writePhase byte succ s = .ok (writeBit s) :=
  writePhase_of_busy (by simp [hs]) (wstep_of_shift hs hn) byte succ

/-- What the acknowledge check of a write phase leaves: a NACK is recorded with the step and the phase served (R186). -/
def State.checked (s : State) : State :=
  { s with
    lines := ⟨some false, some true⟩
    trace := s.trace ++ ackSlotWave (ackDraw s)
    env := s.env.advance
    lastAck := some (ackDraw s)
    w := { s.w with state := .idle }
    phase := s.w.continuation (ackDraw s)
    failStep := if ackDraw s then some s.step else s.failStep
    failPhase := if ackDraw s then some s.phase else s.failPhase }

theorem writePhase_of_check {s : State} (hs : s.w.state = .ackCheck ∨ (s.w.state = .shift ∧ s.w.bits = 0))
    (byte : Byte) (succ : Phase) : writePhase byte succ s = .ok s.checked := by
  have hbusy : s.w.state ≠ .idle := by rcases hs with hs | ⟨hs, _⟩ <;> simp [hs]
  have hcheck := wstep_of_check hs
  rw [ackCheck_eq] at hcheck
  rw [writePhase_of_busy hbusy hcheck]
  simp only [State.checked, ackReturn, ackSlotWave]
  cases ackDraw s <;> rfl

section
variable {row : StepRow} {s : State} {p succ : Phase} {byte : Byte} (h : s.InStep row p)
  (hi : writeItem s.cfg row p = some (byte, succ)) (hr : s.r.state = .idle)
include h hi hr

theorem exec_seqstep_writePhase {t : State} (hw : writePhase byte succ s = .ok t) :
    exec .seqstep s = .next { t with ret := .seqstep .running } := by
  obtain ⟨_, _, _, hwait, rfl⟩ := id h
  exact exec_seqstep_within h (consistent_of_writeItem_read_idle hwait hr hi)
    ((seqDispatch_of_writeItem hwait hi).trans hw) (writePhase_step hw)

theorem exec_seqstep_check (hs : s.w.state = .ackCheck ∨ (s.w.state = .shift ∧ s.w.bits = 0)) :
    exec .seqstep s = .next { s.checked with ret := .seqstep .running } :=
  exec_seqstep_writePhase h hi hr (writePhase_of_check hs byte succ)

end

/-- Settles O34: the write sub-machine's state decides which of its steps the phase takes. -/
theorem seqstepWritesByte : Obligations.SeqstepWritesByte := by
  intro s row p succ byte h hi hr
  refine ⟨fun hs => ?_, fun n hs hn => ?_, fun hs => ⟨ackDraw s, ?_⟩⟩
  · have hload := exec_seqstep_writePhase h hi hr (writePhase_of_idle ⟨hs, hr⟩ byte succ)
    rwa [sent_one] at hload
  · have hne : s.w.bits ≠ 0 := fun h0 => by simp [h0] at hn
    have hbit := exec_seqstep_writePhase h hi hr (writePhase_of_shift hs hne byte succ)
    rwa [writeBit_eq, countDown_of_val_eq_succ hn] at hbit
  · obtain ⟨_, _, _, _, rfl⟩ := id h
    exact exec_seqstep_check h hi hr hs

/-- Settles O43: the check records the NACK and goes on in STOP_FAIL, whose stop condition ends the acquisition. -/
theorem failurePathIsPrecise : Obligations.FailurePathIsPrecise := by
  intro s row p rest h hi hr hs herr ha
  obtain ⟨⟨byte, succ⟩, hi⟩ := Option.isSome_iff_exists.1 hi
  have hdraw : ackDraw s = true := ackDraw_of_answer ha
  have hcheck := exec_seqstep_check h hi hr (.inl hs)
  obtain ⟨hc, hb, hrow, hwait, rfl⟩ := h
  have hphase : s.checked.phase = .stopFail := by simp [State.checked, WriteCtx.continuation, hdraw, herr]
  have hstop := seqstepStopFail { s.checked with ret := .seqstep .running } row ⟨hc, hb, hrow, hwait, hphase⟩ ⟨rfl, hr⟩
  rw [seqsteps_succ hcheck, seqsteps_succ hstop]
  simp only [State.checked, hdraw]
  rfl

/-! ### A byte received (R192) -/

theorem phaseRead_of_reading {row : StepRow} {s : State} (hs : s.r.state = .reading) :
    phaseRead row s = .ok (readBit s) :=
  phaseRead_of_busy (by simp [hs]) (rstep_of_reading hs)

theorem phaseRead_of_slot {row : StepRow} {s : State} {nack : Bool} (hs : s.r.state = slotState nack) :
    phaseRead row s = storeByte (s.answered nack) :=
  phaseRead_of_busy (by cases nack <;> simp [hs, slotState]) (rstep_of_slot hs)

theorem slot_cases {st : RState} (h : st = .sendAck ∨ st = .sendNack) : ∃ nack, st = slotState nack := by
  rcases h with rfl | rfl
  · exact ⟨false, rfl⟩
  · exact ⟨true, rfl⟩

theorem exec_seqstep_phaseRead {reg : Byte} {k : Nat} {tg : Target} {s t : State}
    (h : s.InStep (.read reg k tg) .read) (hw : s.w.state = .idle) (hm : s.r.state = .idle → s.idx.val < k)
    (ht : phaseRead (.read reg k tg) s = .ok t) : exec .seqstep s = .next { t with ret := .seqstep .running } := by
  obtain ⟨_, _, _, hwait, hp⟩ := id h
  exact exec_seqstep_within h (consistent_of_reading hp rfl hw hm) ((seqDispatch_of_read hwait hp).trans ht)
    (phaseRead_step ht)

/-- Settles O35: the read sub-machine's state decides which of its steps the phase takes. -/
theorem seqstepReadsByte : Obligations.SeqstepReadsByte := by
  intro s reg k tg h hw
  refine ⟨fun hs hlt => ?_, fun n hs hn => ⟨readDraw s, ?_⟩, fun buf hs hbuf => ?_⟩
  · have hload := exec_seqstep_phaseRead h hw (fun _ => hlt) (phaseRead_of_idle ⟨hw, hs⟩)
    rw [← readPrime_eq_received, readPrime_eq] at hload
    exact hload
  · have hbit := exec_seqstep_phaseRead h hw (by simp [hs]) (phaseRead_of_reading hs)
    rwa [readBit_eq, readCountAfter_of_val_eq_succ hn, shiftIn_eq_or_ite] at hbit
  · obtain ⟨nack, hnack⟩ := slot_cases hs
    have hwave : (if s.r.state = .sendNack then sendNackWave else sendAckWave) = answerWave nack := by
      rw [hnack]; cases nack <;> rfl
    have hslot := exec_seqstep_phaseRead h hw (by cases nack <;> simp [hnack, slotState])
      ((phaseRead_of_slot hnack).trans (storeByte_of_set (s := s.answered nack) hbuf))
    rw [hwave]
    exact hslot

/-! ### The commit (R193, R194) -/

theorem entryPhase_eq (st : Step) :
    entryPhase st = if st = .waitT1 ∨ st = .waitT2 ∨ st = .done then .idle else .start := by
  cases st <;> rfl

theorem seqReturn_of_next {st nxt : Step} (hn : st.next = some nxt) :
    nxt.seqReturn = if nxt = .done then .done else .running := by
  cases st <;> cases hn <;> rfl

theorem exec_seqstep_stop {row : StepRow} {s u : State} {nxt : Step} (h : s.InStep row .stop) (he : s.EngineIdle)
    (hn : s.step.next = some nxt) (hu : commit row s.stopped = .ok u) :
    exec .seqstep s = .next { u.enter nxt (entryPhase nxt) with ret := .seqstep nxt.seqReturn } := by
  obtain ⟨hc, hb, hrow, hwait, hp⟩ := h
  have hcons : Consistent row s :=
    consistent_of_engineIdle he hwait (by simp [hp]) (by simp [hp]) (by simp [hp]) (by simp [hp])
  exact exec_seqstep_of_dispatch hc hb hrow hcons ((seqDispatch_of_stop hwait hp).trans (phaseStop_of_commit he hu hn))

/-- Settles O36: the commit is the target's assembly from the buffer, whatever the next step is. -/
theorem seqstepStopCommits : Obligations.SeqstepStopCommits := by
  intro s row nxt h he hn
  rw [← entryPhase_eq, ← seqReturn_of_next hn]
  refine ⟨fun hwr => ?_, fun reg n b0 hrow h0 => ?_, fun reg n f b0 b1 hrow h0 h1 => ?_,
    fun reg n b0 b1 hrow h0 h1 => ?_, fun reg n b0 b1 b2 hrow h0 h1 h2 => ?_⟩
  · cases row with
    | write => exact exec_seqstep_stop h he hn rfl
    | read | wait => cases hwr
  · subst hrow
    exact exec_seqstep_stop (u := { s.stopped with devId := some b0 }) h he hn (by simp [commit, State.stopped, h0])
  · subst hrow
    exact exec_seqstep_stop (u := { s.stopped with cal := s.cal.set f (asm16 b0 b1) }) h he hn
      (by simp [commit, State.stopped, h0, h1])
  · subst hrow
    exact exec_seqstep_stop (u := { s.stopped with ut := some (asm16 b0 b1) }) h he hn
      (by simp [commit, State.stopped, h0, h1])
  · subst hrow
    exact exec_seqstep_stop (u := { s.stopped with up := some (assembleUp s.cfg.oss b0 b1 b2) }) h he hn
      (by simp [commit, State.stopped, h0, h1, h2])

/-! ### Faults, and their absence in a legal state (R184, R196) -/

theorem seqstep_noAcquisition {s : State} (hb : s.begun = true) (hr : s.step.resting = true) :
    seqstep s = .error .noAcquisition := by
  simp [seqstep, hb, (stepRow_none_iff s.cfg s.step).2 hr]

theorem seqstep_invalidPhase {row : StepRow} {s : State} (hb : s.begun = true)
    (hrow : stepRow s.cfg s.step = some row) (h : ¬ Consistent row s) : seqstep s = .error .invalidPhase := by
  have hi : inconsistent row s = true := by
    rw [← Bool.not_eq_false, inconsistent_eq_false_iff]
    exact h
  simp [seqstep, hb, hrow, hi]

/-- Settles O39: each combination of R196 contradicts one clause of a consistent state. -/
theorem seqstepRejectsInconsistent : Obligations.SeqstepRejectsInconsistent := by
  refine ⟨fun s hc hb hr => exec_seqstep_error hc (seqstep_noAcquisition hb hr), fun s row hc hb hrow h => ?_⟩
  refine exec_seqstep_error hc (seqstep_invalidPhase hb hrow fun hcons => ?_)
  rcases h with ⟨hw, hp⟩ | ⟨hw, h⟩ | ⟨hp, hw⟩ | ⟨hp, hr⟩ | ⟨hp, he⟩ | ⟨hp, hr⟩ | ⟨hp, hw⟩ | ⟨hp, hr, hle⟩
  · exact hcons.active hw hp
  · obtain ⟨hp, he⟩ := hcons.waiting hw
    exact h.elim (· hp) (· he)
  · simp [hcons.command hp] at hw
  · simp [hcons.reads hp] at hr
  · exact he (hcons.conditions hp)
  · exact hr (hcons.sending ((isWritePhase_iff _).2 hp))
  · exact hw (hcons.reading hp)
  · exact absurd (hcons.more hp hr) hle.not_gt

theorem Step.seqReturn_eq (st : Step) :
    st.seqReturn = if st = .done then .done else if st = .failed then .failed else .running := by
  cases st <;> rfl

/-- Settles O40: in a legal state of an acquisition the dispatch answers. -/
theorem seqstepNeverFaults : Obligations.SeqstepNeverFaults := by
  intro s hc hi hr
  obtain ⟨t, ht, _⟩ := seqstep_of_inFlight hi hr
  rw [Step.seqReturn_eq] at ht
  exact ⟨_, exec_seqstep ht hc s.ret, (seqstep_sameHost ht).clear hc, rfl⟩

end Sys2Proof.Machine
end

/-! PROOFS. How an acquisition ends, and what ACQUIRE makes of it (R202 to R205). -/
section
namespace Sys2Proof.Machine

/-! ### Runs -/

/-- What every SEQSTEP of a run keeps, the run keeps. -/
theorem SeqRun.keeps {P Q : State → Prop} {n : Nat} {s t : State}
    (hQ : ∀ {s t r}, P s → Q s → seqstep s = .ok (t, r) → Q t) (hs : Q s) (h : SeqRun P n s t) : Q t := by
  induction h with
  | refl => exact hs
  | step hP h _ ih => exact ih (hQ hP hs h)

theorem clearAcquisition_machineInv {s : State} (h : s.MayAcquire) : MachineInv s.clearAcquisition :=
  have he : s.EngineIdle := h.1.2
  ⟨(Runs.astart (astart_ok h)).engineInv (engineInv_of_read_idle he.2 (by simp [he.1]) (by simp [he.1])),
    astart_sequencerInv (astart_ok h)⟩

/-- Every acquisition that is admitted runs to DONE or FAILED (R204). -/
theorem acquisition_ends {s : State} (h : s.MayAcquire) :
    ∃ n v, SeqRun InFlight (n + 1) s.clearAcquisition v ∧ n < acquireBound ∧ (v.step = .done ∨ v.step = .failed) := by
  have hzero : s.clearAcquisition.seqstepsDone = 0 := seqstepsDone_of_entered h.1.2 rfl (.inr rfl)
  obtain ⟨n, v, hrun, _, hv⟩ := acquisition_runs 777 (clearAcquisition_machineInv h) rfl nofun (by omega)
  have hbound : acquireBound = 760 := rfl
  rcases hv with ⟨hd, hn⟩ | ⟨hf, hn⟩
  · exact ⟨n, v, hrun, by omega, .inl hd⟩
  · exact ⟨n, v, hrun, by omega, .inr hf⟩

/-! ### What ACQUIRE delivers -/

/-- The state with the result an ended acquisition has; `exec_acquire_of_run` ties it to the machine. -/
def State.delivered (v : State) : State :=
  if v.step = .failed then v.setBusError
  else match v.compInput with
    | some i => v.setCompResult (compResult (comp i v.cfg.oss.toNat))
    | none => v

theorem delivered_of_failed {v : State} (h : v.step = .failed) : v.delivered = v.setBusError := if_pos h

theorem delivered_of_done {v : State} {i : CompInput} (h : v.step = .done) (hi : v.compInput = some i) :
    v.delivered = v.setCompResult (compResult (comp i v.cfg.oss.toNat)) := by
  simp [State.delivered, h, hi]

/-- ACQUIRE delivers what the run from ASTART's state ends with (R204). -/
theorem exec_acquire_of_run {s v : State} {n : Nat} (h : s.MayAcquire)
    (hrun : SeqRun InFlight (n + 1) s.clearAcquisition v) (hn : n < acquireBound)
    (hend : v.step = .done ∨ v.step = .failed) :
    exec .acquire s = .next (v.delivered.returning (.result v.delivered.result)) := by
  have ⟨⟨⟨hc, hb, _⟩, _⟩, _⟩ := h
  have hvi : MachineInv v :=
    hrun.keeps (Q := MachineInv) (fun _ hi hs => seqstep_machineInv hi hs) (clearAcquisition_machineInv h)
  have hloop : acquireLoop acquireBound s.clearAcquisition = .ok v :=
    acquireLoop_of_run hrun hn fun h =>
      hend.elim ((seqReturn_eq_running_iff _).1 h).1 ((seqReturn_eq_running_iff _).1 h).2
  rcases hend with hd | hf
  · obtain ⟨i, hi⟩ := compInput_of_done (hvi.2.2 hd)
    have hbv : v.begun = true := hrun.sameHost.begun.trans hb
    have hcv : v.Clear := hrun.sameHost.clear hc
    have hcomp : compensate v = .ok v.delivered :=
      (compensate_ok_iff _ _).2 ⟨hbv, by rw [hd]; rfl, i, hi, delivered_of_done hd hi⟩
    rw [acquire_eq_compensate (x := v.ret) hc hcv hbv hvi hd (astart_ok h) hloop]
    exact exec_compensate hcv hcomp
  · rw [acquire_of_failed hc hf (astart_ok h) hloop, delivered_of_failed hf]

/-! ### The record of a failure (R195, R202) -/

/-- A commit writes no failure record. -/
theorem phaseStop_record {row : StepRow} {s t : State} (h : phaseStop row s = .ok t) :
    t.failStep = s.failStep ∧ t.failPhase = s.failPhase := by
  obtain ⟨_, u, nxt, hu, _, rfl⟩ := phaseStop_cases h
  have hf := commit_frame hu
  exact ⟨(congrArg State.failStep hf :), (congrArg State.failPhase hf :)⟩

theorem phaseRead_record {row : StepRow} {s t : State} (h : phaseRead row s = .ok t) :
    t.failStep = s.failStep ∧ t.failPhase = s.failPhase := by
  rcases phaseRead_cases h with ⟨_, rfl⟩ | ⟨_, rfl⟩ | ⟨_, rfl⟩ | ⟨_, hb⟩ | ⟨_, hb⟩
  · rw [readPrime_eq]; exact ⟨rfl, rfl⟩
  · rw [readPrime_eq]; exact ⟨rfl, rfl⟩
  · rw [readBit_eq]; exact ⟨rfl, rfl⟩
  · obtain ⟨b, _, rfl⟩ := storeByte_cases hb
    exact ⟨rfl, rfl⟩
  · obtain ⟨b, _, rfl⟩ := storeByte_cases hb
    exact ⟨rfl, rfl⟩

/-- A write phase records a failure as it goes to STOP_FAIL (R186). -/
theorem writePhase_record {row : StepRow} {byte : Byte} {succ : Phase} {s t : State} (hf : FlightInv row s)
    (h : writePhase byte succ s = .ok t) :
    (t.failStep = s.failStep ∧ t.failPhase = s.failPhase) ∨ t.phase = .stopFail := by
  obtain ⟨_, _, _, _, _, _, _, _, _, _, hctx, _, _⟩ := hf
  rcases writePhase_cases h with ⟨_, rfl⟩ | ⟨_, _, rfl⟩ | ⟨_, _, rfl⟩ | ⟨hk, hd, rfl⟩
  · rw [writeBit_eq]; exact .inl ⟨rfl, rfl⟩
  · rw [writeBit_eq]; exact .inl ⟨rfl, rfl⟩
  · rw [ackCheck_eq]; exact .inl ⟨rfl, rfl⟩
  · have herr : s.w.err = .stopFail := (hctx (by rcases hk with hk | ⟨hk, _⟩ <;> simp [hk])).2
    refine .inr ?_
    rw [State.recordFail_phase, ackCheck_eq]
    simp [WriteCtx.continuation, hd, herr]

theorem seqDispatch_record {row : StepRow} {s t : State} (hf : FlightInv row s) (h : seqDispatch row s = .ok t) :
    (t.failStep = s.failStep ∧ t.failPhase = s.failPhase) ∨ t.phase = .stopFail := by
  rcases seqDispatch_cases h with ⟨_, _, hw⟩ | ⟨_, ⟨_, hp⟩ | ⟨_, hp⟩ | ⟨_, _, _, _, _, hp⟩ | ⟨_, _, _, _, hp⟩ |
    ⟨_, _, _, _, hp⟩ | ⟨_, hp⟩ | ⟨_, hp⟩ | ⟨_, hp⟩ | ⟨_, hp⟩ | ⟨_, hp⟩⟩
  · obtain ⟨nxt, _, rfl⟩ := waitStep_cases hw
    exact .inl ⟨rfl, rfl⟩
  · obtain ⟨_, rfl⟩ := (phaseStart_ok_iff _ _).1 hp
    exact .inl ⟨rfl, rfl⟩
  · exact writePhase_record hf hp
  · exact writePhase_record hf hp
  · exact writePhase_record hf hp
  · exact writePhase_record hf hp
  · obtain ⟨_, rfl⟩ := (phaseRestart_ok_iff _ _).1 hp
    exact .inl ⟨rfl, rfl⟩
  · exact writePhase_record hf hp
  · exact .inl (phaseRead_record hp)
  · exact .inl (phaseStop_record hp)
  · obtain ⟨_, rfl⟩ := (phaseStopFail_ok_iff _ _).1 hp
    exact .inl ⟨rfl, rfl⟩

/-- In STOP_FAIL a SEQSTEP ends the acquisition (R195). -/
theorem seqstep_of_stopFail {s t : State} {r : SeqReturn} (hs : SequencerInv s) (hp : s.phase = .stopFail)
    (h : seqstep s = .ok (t, r)) :
    (s.failStep = some s.step ∧ s.failPhase.any isWritePhase = true)
      ∧ t = { s with lines := ⟨some true, some true⟩, trace := s.trace ++ stopWave, step := .failed, phase := .idle,
                     errCode := .busAck } := by
  obtain ⟨_, row, hrow, hc, hd, _⟩ := (seqstep_ok_iff _ _ _).1 h
  obtain ⟨_, _, _, _, _, _, _, _, _, _, _, _, hfail⟩ := flightInv_of_sequencerInv hs hrow
  have hwait : row.isWait = false := by
    cases hw : row.isWait with
    | false => rfl
    | true => simp [(((inconsistent_eq_false_iff _ _).1 hc).waiting hw).1] at hp
  rw [seqDispatch_of_stopFail hwait hp] at hd
  exact ⟨hfail hp, ((phaseStopFail_ok_iff _ _).1 hd).2⟩

/-- An acquisition fails by the phase STOP_FAIL alone (R195). -/
theorem stopFail_of_failed {s t : State} {r : SeqReturn} (hs : MachineInv s) (hfl : InFlight s)
    (h : seqstep s = .ok (t, r)) (hf : t.step = .failed) : s.phase = .stopFail := by
  by_contra hp
  obtain ⟨u, hu, _, hspends, _⟩ := seqstep_of_inFlight hs hfl
  cases hu.symm.trans h
  rcases hspends hp with ⟨_, _, hne, _⟩ | ⟨_, hst, _⟩
  · exact hne hf
  · rw [InFlight, ← hst, hf] at hfl
    cases hfl

/-- The states of an acquisition: legal ones, at rest as a stop condition leaves the bus, and with a failure recorded
exactly where there is one. -/
structure Acquiring (s : State) : Prop where
  machine : MachineInv s
  rest : s.step.afterStop → s.BusIdle ∧ s.EngineIdle ∧ s.phase = .idle
  failed : s.step = .failed →
    s.errCode = .busAck ∧ s.failStep.isSome = true ∧ s.failPhase.any isWritePhase = true
  unrecorded : s.phase = .stopFail ∨ s.step = .failed ∨ (s.failStep = none ∧ s.failPhase = none)

theorem clearAcquisition_acquiring {s : State} (h : s.MayAcquire) : Acquiring s.clearAcquisition where
  machine := clearAcquisition_machineInv h
  rest hst := by simp [Step.afterStop] at hst
  failed hst := by simp at hst
  unrecorded := .inr (.inr ⟨rfl, rfl⟩)

theorem seqstep_acquiring {s t : State} {r : SeqReturn} (hfl : InFlight s) (hs : Acquiring s)
    (h : seqstep s = .ok (t, r)) : Acquiring t where
  machine := seqstep_machineInv hs.machine h
  rest hst := (seqstep_stopped h hst).2
  failed hf := by
    have hp := stopFail_of_failed hs.machine hfl h hf
    obtain ⟨⟨hst, hph⟩, rfl⟩ := seqstep_of_stopFail hs.machine.2 hp h
    exact ⟨rfl, by rw [hst]; rfl, hph⟩
  unrecorded := by
    obtain ⟨_, row, hrow, _, hd, _⟩ := (seqstep_ok_iff _ _ _).1 h
    rcases hs.unrecorded with hp | hf | ⟨hst, hph⟩
    · obtain ⟨_, rfl⟩ := seqstep_of_stopFail hs.machine.2 hp h
      exact .inr (.inl rfl)
    · rw [InFlight, hf] at hfl
      cases hfl
    · rcases seqDispatch_record (flightInv_of_sequencerInv hs.machine.2 hrow) hd with ⟨hst', hph'⟩ | hp
      · exact .inr (.inr ⟨hst'.trans hst, hph'.trans hph⟩)
      · exact .inl hp

/-- Settles O51: the run ends at rest; a failed one has its record, and a finished one the calculator's inputs. -/
theorem acquireCompletes : Obligations.AcquireCompletes := by
  intro s h
  obtain ⟨n, v, hrun, hn, hend⟩ := acquisition_ends h
  have hv : Acquiring v := hrun.keeps seqstep_acquiring (clearAcquisition_acquiring h)
  have hc : v.Clear := hrun.sameHost.clear h.1.1.1
  refine ⟨_, exec_acquire_of_run h hrun hn hend, ?_⟩
  rcases hend with hd | hf
  · obtain ⟨i, hi⟩ := compInput_of_done (hv.machine.2.2 hd)
    obtain ⟨hbus, he, hp⟩ := hv.rest (.inr (.inr (.inl hd)))
    obtain ⟨hid, _⟩ := hv.machine.2.2 hd
    obtain ⟨hst, hph⟩ := (hv.unrecorded.resolve_left (by simp [hp])).resolve_left (by simp [hd])
    rw [delivered_of_done hd hi]
    exact ⟨hc, hbus, he, hp, rfl, .inr ⟨hd, hid (by decide), hst, hph, i, hi, rfl⟩⟩
  · obtain ⟨hbus, he, hp⟩ := hv.rest (.inr (.inr (.inr hf)))
    obtain ⟨herr, hst, hph⟩ := hv.failed hf
    rw [delivered_of_failed hf]
    exact ⟨hc, hbus, he, hp, rfl, .inl ⟨hf, herr, hst, hph, rfl⟩⟩

end Sys2Proof.Machine
end

/-! PROOFS. What an acquisition has committed stays (R194). -/
section
namespace Sys2Proof.Machine

/-- The step that reads a target (R182). -/
def Target.step : Target → Step
  | .devId => .readDeviceId
  | .cal .ac1 => .readAC1
  | .cal .ac2 => .readAC2
  | .cal .ac3 => .readAC3
  | .cal .ac4 => .readAC4
  | .cal .ac5 => .readAC5
  | .cal .ac6 => .readAC6
  | .cal .b1 => .readB1
  | .cal .b2 => .readB2
  | .cal .mb => .readMB
  | .cal .mc => .readMC
  | .cal .md => .readMD
  | .ut => .readUT
  | .up => .readUP

theorem step_of_target {c : Cfg} {st : Step} {reg : Byte} {n : Nat} {tg : Target}
    (h : stepRow c st = some (.read reg n tg)) : tg.step = st := by
  cases st <;> cases h <;> rfl

/-- The field of a target is the same. -/
def Target.same (tg : Target) (s t : State) : Prop :=
  match tg with
  | .devId => t.devId = s.devId
  | .cal f => t.cal.get f = s.cal.get f
  | .ut => t.ut = s.ut
  | .up => t.up = s.up

theorem Target.same_refl (tg : Target) (s : State) : tg.same s s := by cases tg <;> rfl

theorem Target.same_trans {tg : Target} {s t u : State} (h₁ : tg.same s t) (h₂ : tg.same t u) : tg.same s u := by
  cases tg <;> exact h₂.trans h₁

theorem SameAcquisition.same {s t : State} (h : SameAcquisition s t) (tg : Target) : tg.same s t := by
  cases tg with
  | devId => exact h.devId
  | cal f => exact congrArg (·.get f) h.cal
  | ut => exact h.ut
  | up => exact h.up

/-- A target that holds some bytes holds them as long as its field is the same. -/
theorem Target.holds_of_same {tg : Target} {ds : List Byte} {s t : State} (hcfg : t.cfg = s.cfg) (h : tg.same s t)
    (hs : tg.holds ds s) : tg.holds ds t := by
  cases tg with
  | devId =>
    match ds, hs with
    | [_], hs => exact h.trans hs
  | cal f =>
    match ds, hs with
    | [_, _], hs => exact h.trans hs
  | ut =>
    match ds, hs with
    | [_, _], hs => exact h.trans hs
  | up =>
    match ds, hs with
    | [h₀, m, l], hs =>
      show t.up = some (assembleUp t.cfg.oss h₀ m l)
      rw [hcfg]
      exact h.trans hs

theorem commit_same {row : StepRow} {st : Step} {c : Cfg} {s u : State} {tg : Target} (hrow : stepRow c st = some row)
    (h : commit row s = .ok u) (htg : tg.step ≠ st) : tg.same s u := by
  have other {reg : Byte} {n : Nat} {tg' : Target} (hr : row = .read reg n tg') : tg' ≠ tg := by
    rintro rfl
    exact htg (step_of_target (hr ▸ hrow))
  rcases commit_cases h with ⟨_, rfl⟩ | ⟨_, _, _, hr, _, rfl⟩ | ⟨_, _, f, _, _, hr, _, _, rfl⟩ |
    ⟨_, _, _, _, hr, _, _, rfl⟩ | ⟨_, _, _, _, _, hr, _, _, _, rfl⟩
  · exact tg.same_refl _
  · cases tg with
    | devId => exact absurd rfl (other hr)
    | cal | ut | up => rfl
  · cases tg with
    | cal g =>
      have hfg : f ≠ g := fun h => other hr (h ▸ rfl)
      exact (Calibration.get_set _ _ _ _).trans (if_neg hfg)
    | devId | ut | up => rfl
  · cases tg with
    | ut => exact absurd rfl (other hr)
    | devId | cal | up => rfl
  · cases tg with
    | up => exact absurd rfl (other hr)
    | devId | cal | ut => rfl

theorem writePhase_same {byte : Byte} {succ : Phase} {s t : State} (h : writePhase byte succ s = .ok t) :
    SameAcquisition s t := by
  rcases writePhase_cases h with ⟨_, rfl⟩ | ⟨_, _, rfl⟩ | ⟨_, _, rfl⟩ | ⟨_, _, rfl⟩
  · rw [writeBit_eq]; exact ⟨rfl, rfl, rfl, rfl, rfl⟩
  · rw [writeBit_eq]; exact ⟨rfl, rfl, rfl, rfl, rfl⟩
  · rw [ackCheck_eq]; exact ⟨rfl, rfl, rfl, rfl, rfl⟩
  · rw [ackCheck_eq]; exact ⟨rfl, rfl, rfl, rfl, rfl⟩

theorem phaseRead_same {row : StepRow} {s t : State} (h : phaseRead row s = .ok t) : SameAcquisition s t := by
  rcases phaseRead_cases h with ⟨_, rfl⟩ | ⟨_, rfl⟩ | ⟨_, rfl⟩ | ⟨_, hb⟩ | ⟨_, hb⟩
  · rw [readPrime_eq]; exact ⟨rfl, rfl, rfl, rfl, rfl⟩
  · rw [readPrime_eq]; exact ⟨rfl, rfl, rfl, rfl, rfl⟩
  · rw [readBit_eq]; exact ⟨rfl, rfl, rfl, rfl, rfl⟩
  · obtain ⟨b, _, rfl⟩ := storeByte_cases hb
    rw [readSendAck_eq]; exact ⟨rfl, rfl, rfl, rfl, rfl⟩
  · obtain ⟨b, _, rfl⟩ := storeByte_cases hb
    rw [readSendNack_eq]; exact ⟨rfl, rfl, rfl, rfl, rfl⟩

/-- A SEQSTEP writes the target of its own step alone (R194). -/
theorem seqstep_same {s t : State} {r : SeqReturn} {tg : Target} (h : seqstep s = .ok (t, r)) (htg : tg.step ≠ s.step) :
    tg.same s t := by
  obtain ⟨_, row, hrow, _, hd, _⟩ := (seqstep_ok_iff _ _ _).1 h
  rcases seqDispatch_cases hd with ⟨_, _, hw⟩ | ⟨_, ⟨_, hp⟩ | ⟨_, hp⟩ | ⟨_, _, _, _, _, hp⟩ | ⟨_, _, _, _, hp⟩ |
    ⟨_, _, _, _, hp⟩ | ⟨_, hp⟩ | ⟨_, hp⟩ | ⟨_, hp⟩ | ⟨_, hp⟩ | ⟨_, hp⟩⟩
  · obtain ⟨nxt, _, rfl⟩ := waitStep_cases hw
    exact tg.same_refl s
  · obtain ⟨_, rfl⟩ := (phaseStart_ok_iff _ _).1 hp
    exact tg.same_refl s
  · exact (writePhase_same hp).same tg
  · exact (writePhase_same hp).same tg
  · exact (writePhase_same hp).same tg
  · exact (writePhase_same hp).same tg
  · obtain ⟨_, rfl⟩ := (phaseRestart_ok_iff _ _).1 hp
    exact tg.same_refl s
  · exact (writePhase_same hp).same tg
  · exact (phaseRead_same hp).same tg
  · obtain ⟨_, u, nxt, hu, _, rfl⟩ := phaseStop_cases hp
    have hsame : tg.same s u :=
      commit_same (s := { s with lines := ⟨some true, some true⟩, trace := s.trace ++ stopWave }) hrow hu htg
    cases tg <;> exact hsame
  · obtain ⟨_, rfl⟩ := (phaseStopFail_ok_iff _ _).1 hp
    exact tg.same_refl s

theorem Step.rank_le_failed (st : Step) : st.rank ≤ Step.failed.rank := by cases st <;> decide

/-- The logical steps go forward (R181). -/
theorem seqstep_rank_le {s t : State} {r : SeqReturn} (h : seqstep s = .ok (t, r)) : s.step.rank ≤ t.step.rank := by
  obtain ⟨_, row, hrow, _, hd, _⟩ := (seqstep_ok_iff _ _ _).1 h
  rcases seqDispatch_step_cases hd with ⟨_, _, hw⟩ | hp | hp | ⟨_, hst⟩
  · obtain ⟨nxt, hn, rfl⟩ := waitStep_cases hw
    exact (next_rank hn).symm ▸ Nat.le_succ _
  · obtain ⟨_, u, nxt, _, hn, rfl⟩ := phaseStop_cases hp
    exact (next_rank hn).symm ▸ Nat.le_succ _
  · obtain ⟨_, rfl⟩ := (phaseStopFail_ok_iff _ _).1 hp
    exact s.step.rank_le_failed
  · rw [hst]

/-- A run leaves the targets of the steps before its first alone. -/
theorem SeqRun.same {P : State → Prop} {n : Nat} {s t : State} {tg : Target} (h : SeqRun P n s t)
    (htg : tg.step.rank < s.step.rank) : tg.same s t :=
  (h.keeps (Q := fun u => tg.same s u ∧ tg.step.rank < u.step.rank)
    (fun _ ⟨hs, hlt⟩ hstep => ⟨tg.same_trans hs (seqstep_same hstep fun h => by simp [h] at hlt),
      hlt.trans_le (seqstep_rank_le hstep)⟩)
    ⟨tg.same_refl s, htg⟩).1

end Sys2Proof.Machine
end

/-! PROOFS. A whole acquisition, its slots acknowledged: one logical step after another (R205, R210). -/
section
namespace Sys2Proof.Machine

/-! ### One logical step -/

/-- The events of a logical step that receives the bytes `ds`. -/
def StepRow.events (c : Cfg) (row : StepRow) (ds : List Byte) : List BusEvent :=
  match row with
  | .read reg _ _ => readTransaction c reg ds
  | .write reg cmd => writeTransaction c reg cmd
  | .wait sleep => [sleep]

/-- What the environment answers in a logical step that receives the bytes `ds`, every slot acknowledged. -/
def StepRow.answers (row : StepRow) (ds : List Byte) : List Bit :=
  match row with
  | .read _ _ _ => slotsAcknowledged ++ ds.flatMap wireBits
  | .write _ _ => slotsAcknowledged
  | .wait _ => []

/-- A read step's target holds the bytes received. -/
def StepRow.delivered (row : StepRow) (ds : List Byte) (s : State) : Prop :=
  match row with
  | .read _ _ tg => tg.holds ds s
  | .write _ _ => True
  | .wait _ => True

/-- At the start of a logical step. -/
structure Entered (s : State) : Prop where
  clear : s.Clear
  begun : s.begun = true
  engineIdle : s.EngineIdle
  busIdle : s.BusIdle
  idx : s.idx = 0
  phase : s.phase = entryPhase s.step

theorem Completes.entered {n : Nat} {es : List BusEvent} {bs : List Bit} {s t : State} (h : Completes n es bs s t)
    (hs : Entered s) : Entered t :=
  ⟨h.run.sameHost.clear hs.clear, h.run.sameHost.begun.trans hs.begun, h.engineIdle, h.busIdle, h.idx, h.phase⟩

theorem waitStep_completes {s : State} {sleep : BusEvent} (hs : Entered s)
    (hrow : stepRow s.cfg s.step = some (.wait sleep)) : ∃ t, Completes 1 [sleep] [] s t := by
  obtain ⟨nxt, hn⟩ := next_isSome_of_row hrow
  have hp : s.phase = .idle := hs.phase.trans (entryPhase_of_row hrow)
  have hstep := seqstep_of_dispatch hs.begun hrow (consistent_of_wait rfl hp hs.engineIdle) (waitStep_of_next hn)
  have hentry : entryPhase nxt = .start := by
    rcases wait_row_cases hrow with ⟨hst, _⟩ | ⟨hst, _⟩ <;> rw [hst] at hn <;> cases hn <;> rfl
  have hlines : s.lines.after sleep = s.lines := by
    rcases wait_row_cases hrow with ⟨_, rfl⟩ | ⟨_, rfl⟩ <;> rfl
  exact ⟨_, .single rfl hstep, hn, hentry.symm, rfl, fun _ h => h, hlines.trans hs.busIdle, hs.engineIdle, rfl⟩

theorem step_completes {s : State} {row : StepRow} {ds : List Byte} {rest : List Bit} (hs : Entered s)
    (hrow : stepRow s.cfg s.step = some row) (hlen : ds.length = row.count)
    (ha : s.env.answers = row.answers ds ++ rest) :
    ∃ t, Completes row.length (row.events s.cfg ds) (row.answers ds) s t ∧ row.delivered ds t := by
  have hp : s.phase = if row.isWait then .idle else .start := hs.phase.trans (entryPhase_of_row hrow)
  cases row with
  | read reg n tg => exact readTransaction_completes ⟨hs.clear, hs.begun, hrow, rfl, hp⟩ hs.engineIdle hs.idx hlen ha
  | write reg cmd =>
    obtain ⟨t, ht⟩ := writeTransaction_completes ⟨hs.clear, hs.begun, hrow, rfl, hp⟩ hs.engineIdle ha
    exact ⟨t, ht, trivial⟩
  | wait sleep =>
    obtain ⟨t, ht⟩ := waitStep_completes hs hrow
    exact ⟨t, ht, trivial⟩

/-! ### Several logical steps -/

/-- Logical steps in the order of R181 from `st` up to `last`, each with its row and the bytes it receives. -/
inductive Plan (c : Cfg) (last : Step) : Step → List (StepRow × List Byte) → Prop
  | nil : Plan c last last []
  | cons {st nxt : Step} {row : StepRow} {ds : List Byte} {plan : List (StepRow × List Byte)}
      (hrow : stepRow c st = some row) (hlen : ds.length = row.count) (hn : st.next = some nxt)
      (h : Plan c last nxt plan) : Plan c last st ((row, ds) :: plan)

theorem SeqRun.mono {P Q : State → Prop} {n : Nat} {s t : State} (h : SeqRun P n s t) (hPQ : ∀ u, P u → Q u) :
    SeqRun Q n s t := by
  induction h with
  | refl s => exact .refl s
  | step hP h _ ih => exact .step (hPQ _ hP) h ih

/-- Whole logical steps lead from `s` to `t`: they emit their events, take their answers and deliver their bytes. -/
structure Carries (plan : List (StepRow × List Byte)) (s t : State) : Prop where
  run : SeqRun InFlight (plan.map fun p => p.1.length).sum s t
  trace : t.trace = s.trace ++ plan.flatMap fun p => p.1.events s.cfg p.2
  answers : ∀ rest, s.env.answers = (plan.flatMap fun p => p.1.answers p.2) ++ rest → t.env.answers = rest
  delivered : ∀ p ∈ plan, p.1.delivered p.2 t

theorem delivered_of_run {P : State → Prop} {n : Nat} {c : Cfg} {st : Step} {row : StepRow} {ds : List Byte}
    {s t : State} (hrow : stepRow c st = some row) (hlt : st.rank < s.step.rank) (h : SeqRun P n s t)
    (hs : row.delivered ds s) : row.delivered ds t := by
  cases row with
  | read reg n tg => exact Target.holds_of_same h.sameHost.cfg (h.same (step_of_target hrow ▸ hlt)) hs
  | write | wait => trivial

theorem plan_carries {c : Cfg} {last : Step} {plan : List (StepRow × List Byte)} {s : State} {rest : List Bit}
    (hplan : Plan c last s.step plan) (hc : s.cfg = c) (hs : Entered s)
    (ha : s.env.answers = (plan.flatMap fun p => p.1.answers p.2) ++ rest) :
    ∃ t, Carries plan s t ∧ t.step = last := by
  generalize hst : s.step = st at hplan
  induction hplan generalizing s with
  | nil => exact ⟨s, ⟨.refl s, by simp, fun _ h => h, by simp⟩, hst⟩
  | @cons st nxt row ds plan hrow hlen hn _ ih =>
    subst hc hst
    rw [List.flatMap_cons, List.append_assoc] at ha
    obtain ⟨t, ht, hdel⟩ := step_completes hs hrow hlen ha
    have hnxt : t.step = nxt := Option.some.inj (ht.next.symm.trans hn)
    obtain ⟨u, hu, hlast⟩ := ih ht.run.sameHost.cfg (ht.entered hs) (ht.answers _ ha) hnxt
    have hlt : s.step.rank < t.step.rank := by rw [next_rank ht.next]; exact Nat.lt_succ_self _
    have hrun : SeqRun InFlight row.length s t := ht.run.mono fun v hv => by
      rw [InFlight, hv]
      exact resting_eq_false_of_row hrow
    refine ⟨u, ⟨hrun.trans hu.run, ?_, fun rest h => ?_, ?_⟩, hlast⟩
    · rw [hu.trace, ht.trace, ht.run.sameHost.cfg, List.flatMap_cons, List.append_assoc]
    · rw [List.flatMap_cons, List.append_assoc] at h
      exact hu.answers rest (ht.answers _ h)
    · exact List.forall_mem_cons.2 ⟨delivered_of_run hrow hlt hu.run hdel, hu.delivered⟩

/-! ### The acquisition -/

/-- The calibration words with their places from REG_CAL0 on (R182). -/
def calibrationWords : List (Byte × CalField) :=
  [(0, .ac1), (2, .ac2), (4, .ac3), (6, .ac4), (8, .ac5), (10, .ac6), (12, .b1), (14, .b2), (16, .mb), (18, .mc),
    (20, .md)]

/-- The eighteen logical steps of an acquisition with the bytes they receive (R181, R182). -/
def acquisitionPlan (c : Cfg) (id : Byte) (cal : List (Byte × Byte)) (ut : Byte × Byte) (up : Byte × Byte × Byte) :
    List (StepRow × List Byte) :=
  (StepRow.read c.regId 1 .devId, [id])
    :: List.zipWith (fun p w => (StepRow.read (c.regCal0 + p.1) 2 (.cal p.2), [w.1, w.2])) calibrationWords cal
    ++ [(StepRow.write c.regCtrl c.cmdTemp, []), (StepRow.wait .sleepT1, []), (StepRow.read c.regOut 2 .ut, [ut.1, ut.2]),
        (StepRow.write c.regCtrl c.cmdPres, []), (StepRow.wait .sleepT2, []),
        (StepRow.read c.regOut 3 .up, [up.1, up.2.1, up.2.2])]

theorem exists_of_length_eleven {α : Type} {l : List α} (h : l.length = 11) :
    ∃ a b c d e f g h i j k, l = [a, b, c, d, e, f, g, h, i, j, k] := by
  match l, h with
  | [a, b, c, d, e, f, g, h, i, j, k], _ => exact ⟨a, b, c, d, e, f, g, h, i, j, k, rfl⟩

section
variable (c : Cfg) (id : Byte) {cal : List (Byte × Byte)} (ut : Byte × Byte) (up : Byte × Byte × Byte)
  (h : cal.length = 11)
include h

theorem acquisitionPlan_plan : Plan c .done .readDeviceId (acquisitionPlan c id cal ut up) := by
  obtain ⟨w₁, w₂, w₃, w₄, w₅, w₆, w₇, w₈, w₉, w₁₀, w₁₁, rfl⟩ := exists_of_length_eleven h
  have h0 : c.regCal0 + 0 = c.regCal0 := BitVec.add_zero _
  simp only [acquisitionPlan, calibrationWords, List.zipWith_cons_cons, List.zipWith_nil_right, List.cons_append, List.nil_append, h0]
  iterate 18 refine .cons rfl rfl rfl ?_
  exact .nil

theorem acquisitionPlan_length : ((acquisitionPlan c id cal ut up).map fun p => p.1.length).sum = 760 := by
  obtain ⟨w₁, w₂, w₃, w₄, w₅, w₆, w₇, w₈, w₉, w₁₀, w₁₁, rfl⟩ := exists_of_length_eleven h
  simp [acquisitionPlan, calibrationWords, StepRow.length]

theorem acquisitionPlan_events :
    ((acquisitionPlan c id cal ut up).flatMap fun p => p.1.events c p.2) = acquisitionEvents c id cal ut up := by
  obtain ⟨w₁, w₂, w₃, w₄, w₅, w₆, w₇, w₈, w₉, w₁₀, w₁₁, rfl⟩ := exists_of_length_eleven h
  simp [acquisitionPlan, calibrationWords, acquisitionEvents, StepRow.events]

theorem acquisitionPlan_answers :
    ((acquisitionPlan c id cal ut up).flatMap fun p => p.1.answers p.2) = acquisitionAnswers id cal ut up := by
  obtain ⟨w₁, w₂, w₃, w₄, w₅, w₆, w₇, w₈, w₉, w₁₀, w₁₁, rfl⟩ := exists_of_length_eleven h
  simp [acquisitionPlan, calibrationWords, acquisitionAnswers, StepRow.answers]

theorem eventCounts_acquisitionEvents :
    eventCounts (acquisitionEvents c id cal ut up) = ⟨1460, 1444, 594, 272, 2⟩ := by
  obtain ⟨w₁, w₂, w₃, w₄, w₅, w₆, w₇, w₈, w₉, w₁₀, w₁₁, rfl⟩ := exists_of_length_eleven h
  have hsleep₁ : eventCounts [.sleepT1] = ⟨0, 0, 0, 0, 1⟩ := rfl
  have hsleep₂ : eventCounts [.sleepT2] = ⟨0, 0, 0, 0, 1⟩ := rfl
  simp [acquisitionEvents, eventCounts_append, eventCounts_readTransaction, eventCounts_writeTransaction,
    EventCounts.plus, hsleep₁, hsleep₂, -List.append_assoc]

/-- Every field holds what its step received. -/
theorem acquisitionPlan_delivers {t : State} (ht : ∀ p ∈ acquisitionPlan c id cal ut up, p.1.delivered p.2 t) :
    t.devId = some id ∧ t.cal.inOrder = cal.map (fun w => some (asm16 w.1 w.2)) ∧ t.ut = some (asm16 ut.1 ut.2)
      ∧ t.up = some (assembleUp t.cfg.oss up.1 up.2.1 up.2.2) := by
  obtain ⟨w₁, w₂, w₃, w₄, w₅, w₆, w₇, w₈, w₉, w₁₀, w₁₁, rfl⟩ := exists_of_length_eleven h
  simp only [acquisitionPlan, calibrationWords, List.zipWith_cons_cons, List.zipWith_nil_right, List.cons_append, List.nil_append,
    List.forall_mem_cons, StepRow.delivered, Target.holds, Calibration.get] at ht
  obtain ⟨hid, h₁, h₂, h₃, h₄, h₅, h₆, h₇, h₈, h₉, h₁₀, h₁₁, _, _, hut, _, _, hup, _⟩ := ht
  refine ⟨hid, ?_, hut, hup⟩
  simp [Calibration.inOrder, h₁, h₂, h₃, h₄, h₅, h₆, h₇, h₈, h₉, h₁₀, h₁₁]

end

/-- Every event is of one of the five kinds (R43). -/
theorem length_eq_eventCounts (es : List BusEvent) :
    es.length = (eventCounts es).half + (eventCounts es).scl + (eventCounts es).sda + (eventCounts es).sample
      + (eventCounts es).sleep := by
  induction es with
  | nil => rfl
  | cons e es ih =>
    have hone : eventCounts (e :: es) = (eventCounts [e]).plus (eventCounts es) := eventCounts_append [e] es
    rw [hone, List.length_cons, ih]
    cases e <;> simp [EventCounts.plus, eventCounts, BusEvent.isHalf, BusEvent.isScl, BusEvent.isSda,
      BusEvent.isSample, BusEvent.isSleep] <;> omega

theorem clearAcquisition_entered {s : State} (h : s.MayAcquire) : Entered s.clearAcquisition :=
  ⟨h.1.1.1, h.1.1.2.1, h.1.2, h.2, rfl, rfl⟩

/-- Settles O52: the plan's steps, one after another, from ASTART's state. -/
theorem acquireDeliversData : Obligations.AcquireDeliversData := by
  intro s id uh ul ph pm pl cal rest h hlen ha seg
  have hplan := acquisitionPlan_plan s.cfg id (uh, ul) (ph, pm, pl) hlen
  rw [← acquisitionPlan_answers s.cfg id (uh, ul) (ph, pm, pl) hlen] at ha
  obtain ⟨v, hv, hd⟩ := plan_carries (s := s.clearAcquisition) hplan rfl (clearAcquisition_entered h) ha
  have hcfg : v.cfg = s.cfg := hv.run.sameHost.cfg
  obtain ⟨hid, hcal, hut, hup⟩ := acquisitionPlan_delivers s.cfg id (uh, ul) (ph, pm, pl) hlen hv.delivered
  have hrun := hv.run
  rw [acquisitionPlan_length s.cfg id (uh, ul) (ph, pm, pl) hlen] at hrun
  have hvi : MachineInv v :=
    hrun.keeps (Q := MachineInv) (fun _ hi hs => seqstep_machineInv hi hs) (clearAcquisition_machineInv h)
  obtain ⟨i, hi⟩ := compInput_of_done (hvi.2.2 hd)
  have hcounts : eventCounts seg = ⟨1460, 1444, 594, 272, 2⟩ :=
    eventCounts_acquisitionEvents s.cfg id (uh, ul) (ph, pm, pl) hlen
  have htrace : v.trace = s.trace ++ seg := by
    rw [hv.trace]
    exact congrArg (s.trace ++ ·) (acquisitionPlan_events s.cfg id (uh, ul) (ph, pm, pl) hlen)
  refine ⟨_, i, exec_acquire_of_run h hrun (by decide) (.inl hd), ?_⟩
  rw [delivered_of_done hd hi]
  exact ⟨hrun.sameHost.clear h.1.1.1, hd, hid, hcal, hut, hcfg ▸ hup, hi, by rw [hcfg]; rfl, hv.answers rest ha, htrace,
    by simp [length_eq_eventCounts, hcounts], hcounts⟩

end Sys2Proof.Machine
end

/-! PROOFS. What a SEQSTEP samples: the environment's answers in order, as far as they go (R11, R121). -/
section
namespace Sys2Proof.Machine

/-- The line value an event sampled. -/
def BusEvent.drawn : BusEvent → Option Bit
  | .sample b => some b
  | .scl _ => none
  | .sda _ => none
  | .half => none
  | .sleepT1 => none
  | .sleepT2 => none

/-- The line values sampled in an interval. -/
def drawnBits (es : List BusEvent) : List Bit := es.filterMap BusEvent.drawn

theorem drawnBits_append (es fs : List BusEvent) : drawnBits (es ++ fs) = drawnBits es ++ drawnBits fs :=
  List.filterMap_append

/-- The core's own events say how many values were sampled. -/
theorem drawnBits_length (es : List BusEvent) :
    (drawnBits es).length = (es.map BusEvent.own).countP BusEvent.isSample := by
  induction es with
  | nil => rfl
  | cons e es ih =>
    rw [drawnBits, List.filterMap_cons, List.map_cons, List.countP_cons, ← ih]
    cases e <;> rfl

theorem drawnBits_length_eq_sample (es : List BusEvent) : (drawnBits es).length = (eventCounts es).sample := by
  have hown : BusEvent.isSample ∘ BusEvent.own = BusEvent.isSample := by
    funext e
    cases e <;> rfl
  rw [drawnBits_length, List.countP_map, hown]
  rfl

/-- `t` is `s` after the events `es`, whose samples are the answers that the environment had ready. -/
structure Draws (es : List BusEvent) (s t : State) : Prop where
  trace : t.trace = s.trace ++ es
  answers : ∀ bs rest, s.env.answers = bs ++ rest → bs.length = (drawnBits es).length →
    drawnBits es = bs ∧ t.env.answers = rest

theorem draws_of_silent {es : List BusEvent} {s t : State} (ht : t.trace = s.trace ++ es) (he : t.env = s.env)
    (hd : drawnBits es = []) : Draws es s t := by
  refine ⟨ht, fun bs rest ha hlen => ?_⟩
  rw [hd] at hlen
  obtain rfl := List.eq_nil_of_length_eq_zero hlen
  exact ⟨hd, he ▸ ha⟩

/-- One sample takes one answer. -/
theorem draws_of_sample {es : List BusEvent} {s t : State} {b : Bit} (ht : t.trace = s.trace ++ es)
    (he : t.env = s.env.advance) (hd : drawnBits es = [b])
    (hb : ∀ a rest, s.env.answers = a :: rest → b = a) : Draws es s t := by
  refine ⟨ht, fun bs rest ha hlen => ?_⟩
  rw [hd] at hlen
  obtain ⟨a, rfl⟩ := List.length_eq_one_iff.1 hlen
  rw [hd, hb a rest ha, he]
  exact ⟨rfl, by simp [Env.advance, ha]⟩

theorem drawnBits_ackSlotWave (a : Bit) : drawnBits (ackSlotWave a) = [a] := rfl

theorem writePhase_draws {byte : Byte} {succ : Phase} {s t : State} (h : writePhase byte succ s = .ok t) :
    ∃ es, Draws es s t := by
  have check {t : State} (ht : t.trace = s.trace ++ ackSlotWave (ackDraw s))
      (he : t.env = s.env.advance) : ∃ es, Draws es s t :=
    ⟨_, draws_of_sample ht he (drawnBits_ackSlotWave _) fun _ _ => ackDraw_of_answer⟩
  rcases writePhase_cases h with ⟨_, rfl⟩ | ⟨_, _, rfl⟩ | ⟨_, _, rfl⟩ | ⟨_, _, rfl⟩
  · rw [writeBit_eq]
    exact ⟨writeBitWave _, draws_of_silent rfl rfl rfl⟩
  · rw [writeBit_eq]
    exact ⟨writeBitWave _, draws_of_silent rfl rfl rfl⟩
  · rw [ackCheck_eq]
    exact check rfl rfl
  · rw [ackCheck_eq]
    exact check rfl rfl

theorem phaseRead_draws {row : StepRow} {s t : State} (hs : ReleasedInv s) (h : phaseRead row s = .ok t) :
    ∃ es, Draws es s t := by
  rcases phaseRead_cases h with ⟨_, rfl⟩ | ⟨_, rfl⟩ | ⟨hr, rfl⟩ | ⟨_, hb⟩ | ⟨_, hb⟩
  · rw [readPrime_eq]
    exact ⟨_, draws_of_silent rfl rfl rfl⟩
  · rw [readPrime_eq]
    exact ⟨_, draws_of_silent rfl rfl rfl⟩
  · have hsda : s.lines.sda ≠ some false := by simp [hs (.inl hr)]
    rw [readBit_eq]
    exact ⟨_, draws_of_sample rfl rfl rfl fun _ _ => readDraw_of_answer hsda⟩
  · obtain ⟨b, _, rfl⟩ := storeByte_cases hb
    rw [readSendAck_eq]
    exact ⟨_, draws_of_silent rfl rfl rfl⟩
  · obtain ⟨b, _, rfl⟩ := storeByte_cases hb
    rw [readSendNack_eq]
    exact ⟨_, draws_of_silent rfl rfl rfl⟩

theorem seqDispatch_draws {row : StepRow} {s t : State} (hrow : stepRow s.cfg s.step = some row) (hs : ReleasedInv s)
    (h : seqDispatch row s = .ok t) : ∃ es, Draws es s t := by
  rcases seqDispatch_cases h with ⟨_, rfl, hw⟩ | ⟨_, ⟨_, hp⟩ | ⟨_, hp⟩ | ⟨_, _, _, _, _, hp⟩ | ⟨_, _, _, _, hp⟩ |
    ⟨_, _, _, _, hp⟩ | ⟨_, hp⟩ | ⟨_, hp⟩ | ⟨_, hp⟩ | ⟨_, hp⟩ | ⟨_, hp⟩⟩
  · obtain ⟨nxt, _, rfl⟩ := waitStep_cases hw
    rcases wait_row_cases hrow with ⟨_, rfl⟩ | ⟨_, rfl⟩ <;> exact ⟨_, draws_of_silent rfl rfl rfl⟩
  · obtain ⟨_, rfl⟩ := (phaseStart_ok_iff _ _).1 hp
    exact ⟨_, draws_of_silent rfl rfl rfl⟩
  · exact writePhase_draws hp
  · exact writePhase_draws hp
  · exact writePhase_draws hp
  · exact writePhase_draws hp
  · obtain ⟨_, rfl⟩ := (phaseRestart_ok_iff _ _).1 hp
    exact ⟨_, draws_of_silent rfl rfl rfl⟩
  · exact writePhase_draws hp
  · exact phaseRead_draws hs hp
  · obtain ⟨_, u, nxt, hu, _, rfl⟩ := phaseStop_cases hp
    have hf := commit_frame hu
    exact ⟨stopWave, draws_of_silent (congrArg State.trace hf :) (congrArg State.env hf :) rfl⟩
  · obtain ⟨_, rfl⟩ := (phaseStopFail_ok_iff _ _).1 hp
    exact ⟨_, draws_of_silent rfl rfl rfl⟩

theorem seqstep_draws {s t : State} {r : SeqReturn} (hs : ReleasedInv s) (h : seqstep s = .ok (t, r)) :
    ∃ es, Draws es s t := by
  obtain ⟨_, row, hrow, _, hd, _⟩ := (seqstep_ok_iff _ _ _).1 h
  exact seqDispatch_draws hrow hs hd

end Sys2Proof.Machine
end

/-! PROOFS. Two acquisitions side by side: one SEQSTEP of each (R207). -/
section
namespace Sys2Proof.Machine

/-! ### What two acquisitions have in common -/

/-- Two acquisitions are equally far: they differ in what they have received and in the contexts of idle sub-machines. -/
structure SameControl (s t : State) : Prop where
  cfg : t.cfg = s.cfg
  step : t.step = s.step
  phase : t.phase = s.phase
  idx : t.idx = s.idx
  wState : t.w.state = s.w.state
  w : s.w.state ≠ .idle → t.w = s.w
  rState : t.r.state = s.r.state
  r : s.r.state ≠ .idle → t.r = { s.r with byte := t.r.byte }

/-- Two acquisitions have received the same. -/
structure SameData (s t : State) : Prop where
  buf : t.buf = s.buf
  devId : t.devId = s.devId
  cal : t.cal = s.cal
  ut : t.ut = s.ut
  up : t.up = s.up
  failStep : t.failStep = s.failStep
  failPhase : t.failPhase = s.failPhase
  errCode : t.errCode = s.errCode
  byte : s.r.state ≠ .idle → t.r.byte = s.r.byte

/-- One SEQSTEP each of two acquisitions: the core's own events are the same, and both stay equally far but for a NACK;
where they sample the same, nothing differs. -/
structure Lockstep (es₁ es₂ : List BusEvent) (s₁ s₂ t₁ t₂ : State) : Prop where
  trace₁ : t₁.trace = s₁.trace ++ es₁
  trace₂ : t₂.trace = s₂.trace ++ es₂
  own : es₁.map BusEvent.own = es₂.map BusEvent.own
  control : t₁.phase = .stopFail ∨ t₂.phase = .stopFail ∨ SameControl t₁ t₂
  same : drawnBits es₁ = drawnBits es₂ → es₁ = es₂ ∧ SameControl t₁ t₂ ∧ (SameData s₁ s₂ → SameData t₁ t₂)

/-- SEQSTEPs that emit the same events. -/
theorem lockstep_of_same {es : List BusEvent} {s₁ s₂ t₁ t₂ : State} (ht₁ : t₁.trace = s₁.trace ++ es)
    (ht₂ : t₂.trace = s₂.trace ++ es) (hc : SameControl t₁ t₂) (hd : SameData s₁ s₂ → SameData t₁ t₂) :
    ∃ es₁ es₂, Lockstep es₁ es₂ s₁ s₂ t₁ t₂ :=
  ⟨es, es, ht₁, ht₂, rfl, .inr (.inr hc), fun _ => ⟨rfl, hc, hd⟩⟩

/-- Lines, trace, write context and place are no data received. -/
theorem SameData.moved {s₁ s₂ : State} (h : SameData s₁ s₂) (l₁ l₂ : Lines) (es₁ es₂ : List BusEvent)
    (w₁ w₂ : WriteCtx) (st₁ st₂ : Step) (p₁ p₂ : Phase) (i₁ i₂ : Fin 4) :
    SameData { s₁ with lines := l₁, trace := es₁, w := w₁, step := st₁, phase := p₁, idx := i₁ }
      { s₂ with lines := l₂, trace := es₂, w := w₂, step := st₂, phase := p₂, idx := i₂ } :=
  ⟨h.buf, h.devId, h.cal, h.ut, h.up, h.failStep, h.failPhase, h.errCode, h.byte⟩

/-! ### A byte sent -/

theorem checked_lockstep {s₁ s₂ : State} (h : SameControl s₁ s₂) (hw : s₁.w.state ≠ .idle)
    (herr : s₁.w.err = .stopFail) : ∃ es₁ es₂, Lockstep es₁ es₂ s₁ s₂ s₁.checked s₂.checked := by
  have hww := h.w hw
  have alike (ha : ackDraw s₂ = ackDraw s₁) : SameControl s₁.checked s₂.checked :=
    ⟨h.cfg, h.step, by simp [State.checked, hww, ha], h.idx, rfl, fun hi => absurd rfl hi, h.rState, h.r⟩
  refine ⟨_, _, rfl, rfl, rfl, ?_, fun hb => ?_⟩
  · cases h₁ : ackDraw s₁ with
    | true => exact .inl (by simp [State.checked, WriteCtx.continuation, h₁, herr])
    | false =>
      cases h₂ : ackDraw s₂ with
      | true => exact .inr (.inl (by simp [State.checked, WriteCtx.continuation, h₂, hww, herr]))
      | false => exact .inr (.inr (alike (h₂.trans h₁.symm)))
  · have ha : ackDraw s₂ = ackDraw s₁ := (List.cons.inj hb).1.symm
    refine ⟨by rw [ha], alike ha, fun hd => ?_⟩
    exact ⟨hd.buf, hd.devId, hd.cal, hd.ut, hd.up, by simp [State.checked, ha, h.step, hd.failStep],
      by simp [State.checked, ha, h.phase, hd.failPhase], hd.errCode, hd.byte⟩

theorem writePhase_lockstep {byte : Byte} {succ : Phase} {s₁ s₂ t₁ t₂ : State} (h : SameControl s₁ s₂)
    (hr : s₁.r.state = .idle) (herr : s₁.w.state ≠ .idle → s₁.w.err = .stopFail)
    (h₁ : writePhase byte succ s₁ = .ok t₁) (h₂ : writePhase byte succ s₂ = .ok t₂) :
    ∃ es₁ es₂, Lockstep es₁ es₂ s₁ s₂ t₁ t₂ := by
  have check (hs : s₁.w.state = .ackCheck ∨ (s₁.w.state = .shift ∧ s₁.w.bits = 0)) :
      ∃ es₁ es₂, Lockstep es₁ es₂ s₁ s₂ t₁ t₂ := by
    have hw : s₁.w.state ≠ .idle := by rcases hs with hs | ⟨hs, _⟩ <;> simp [hs]
    rw [writePhase_of_check hs] at h₁
    rw [writePhase_of_check (h.w hw ▸ hs)] at h₂
    cases h₁
    cases h₂
    exact checked_lockstep h hw (herr hw)
  cases hw : s₁.w.state with
  | idle =>
    rw [writePhase_of_idle ⟨hw, hr⟩] at h₁
    rw [writePhase_of_idle ⟨h.wState.trans hw, h.rState.trans hr⟩] at h₂
    cases h₁
    cases h₂
    exact lockstep_of_same rfl rfl ⟨h.cfg, h.step, h.phase, h.idx, rfl, fun _ => rfl, h.rState, h.r⟩
      fun hd => hd.moved ..
  | ackCheck => exact check (.inl hw)
  | shift =>
    by_cases hn : s₁.w.bits = 0
    · exact check (.inr ⟨hw, hn⟩)
    · have hww := h.w (by simp [hw])
      rw [writePhase_of_shift hw hn, writeBit_eq] at h₁
      rw [writePhase_of_shift (hww ▸ hw) (hww ▸ hn), writeBit_eq, hww] at h₂
      cases h₁
      cases h₂
      exact lockstep_of_same rfl rfl ⟨h.cfg, h.step, h.phase, h.idx, rfl, fun _ => rfl, h.rState, h.r⟩
        fun hd => hd.moved ..

/-! ### A byte received -/

theorem readBit_lockstep {s₁ s₂ : State} (h : SameControl s₁ s₂) (hr : s₁.r.state ≠ .idle) (hn : s₁.r.bits ≠ 0) :
    ∃ es₁ es₂, Lockstep es₁ es₂ s₁ s₂ (readBit s₁) (readBit s₂) := by
  have hrr := h.r hr
  have hbits : s₂.r.bits = s₁.r.bits := by rw [hrr]
  have hnack : s₂.r.nack = s₁.r.nack := by rw [hrr]
  have hsucc : s₂.r.succ = s₁.r.succ := by rw [hrr]
  have hcount : readCountAfter s₂ = readCountAfter s₁ := by
    rw [readCountAfter_of_ne hn, readCountAfter_of_ne (hbits ▸ hn), hbits]
  have alike : SameControl (readBit s₁) (readBit s₂) := by
    rw [readBit_eq, readBit_eq]
    exact ⟨h.cfg, h.step, h.phase, h.idx, h.wState, h.w, by simp only [hcount, hnack],
      fun _ => by simp only [hcount, hnack, hsucc]⟩
  rw [readBit_eq s₁, readBit_eq s₂] at alike ⊢
  refine ⟨_, _, rfl, rfl, rfl, .inr (.inr alike), fun hb => ?_⟩
  have hd : readDraw s₂ = readDraw s₁ := (List.cons.inj hb).1.symm
  refine ⟨by rw [hd], alike, fun hdata => ?_⟩
  exact ⟨hdata.buf, hdata.devId, hdata.cal, hdata.ut, hdata.up, hdata.failStep, hdata.failPhase, hdata.errCode,
    fun _ => by simp only [hd, hdata.byte hr]⟩

theorem storeByte_lockstep {nack : Bool} {s₁ s₂ t₁ t₂ : State} (h : SameControl s₁ s₂) (hr : s₁.r.state ≠ .idle)
    (h₁ : storeByte (s₁.answered nack) = .ok t₁) (h₂ : storeByte (s₂.answered nack) = .ok t₂) :
    ∃ es₁ es₂, Lockstep es₁ es₂ s₁ s₂ t₁ t₂ := by
  obtain ⟨b₁, hb₁, rfl⟩ := storeByte_cases h₁
  obtain ⟨b₂, hb₂, rfl⟩ := storeByte_cases h₂
  have hsucc : s₂.r.succ = s₁.r.succ := by rw [h.r hr]
  have hidx : s₂.idx + 1 = s₁.idx + 1 := by rw [h.idx]
  refine lockstep_of_same rfl rfl ⟨h.cfg, h.step, hsucc, hidx, h.wState, h.w, rfl, fun hi => absurd rfl hi⟩ fun hd => ?_
  have hb₂ : s₂.buf.set s₂.idx.val s₂.r.byte = some b₂ := hb₂
  rw [hd.buf, h.idx, hd.byte hr] at hb₂
  exact ⟨Option.some.inj (hb₂.symm.trans hb₁), hd.devId, hd.cal, hd.ut, hd.up, hd.failStep, hd.failPhase, hd.errCode,
    fun hi => absurd rfl hi⟩

theorem phaseRead_lockstep {row : StepRow} {s₁ s₂ t₁ t₂ : State} (h : SameControl s₁ s₂)
    (hw : s₁.w.state = .idle) (hn : s₁.r.state = .reading → s₁.r.bits ≠ 0)
    (h₁ : phaseRead row s₁ = .ok t₁) (h₂ : phaseRead row s₂ = .ok t₂) :
    ∃ es₁ es₂, Lockstep es₁ es₂ s₁ s₂ t₁ t₂ := by
  have slot {nack : Bool} (hs : s₁.r.state = slotState nack) : ∃ es₁ es₂, Lockstep es₁ es₂ s₁ s₂ t₁ t₂ := by
    rw [phaseRead_of_slot hs] at h₁
    rw [phaseRead_of_slot (h.rState.trans hs)] at h₂
    exact storeByte_lockstep h (by cases nack <;> simp [hs, slotState]) h₁ h₂
  cases hr : s₁.r.state with
  | idle =>
    rw [phaseRead_of_idle ⟨hw, hr⟩, ← readPrime_eq_received, readPrime_eq] at h₁
    rw [phaseRead_of_idle ⟨h.wState.trans hw, h.rState.trans hr⟩, ← readPrime_eq_received, readPrime_eq] at h₂
    cases h₁
    cases h₂
    refine lockstep_of_same rfl rfl ⟨h.cfg, h.step, h.phase, h.idx, h.wState, h.w, rfl, fun _ => ?_⟩ fun hd =>
      ⟨hd.buf, hd.devId, hd.cal, hd.ut, hd.up, hd.failStep, hd.failPhase, hd.errCode, fun _ => rfl⟩
    simp [State.primedFor, State.primed, h.idx]
  | priming =>
    have hbusy : s₁.r.state ≠ .idle := by simp [hr]
    have hr₂ : s₂.r.state = .priming := h.rState.trans hr
    rw [phaseRead_of_busy hbusy (rstep_of_priming hr), ← readPrime_eq_received, readPrime_eq] at h₁
    rw [phaseRead_of_busy (by simp [hr₂]) (rstep_of_priming hr₂), ← readPrime_eq_received, readPrime_eq] at h₂
    cases h₁
    cases h₂
    refine lockstep_of_same rfl rfl ⟨h.cfg, h.step, h.phase, h.idx, h.wState, h.w, rfl, fun _ => ?_⟩ fun hd =>
      ⟨hd.buf, hd.devId, hd.cal, hd.ut, hd.up, hd.failStep, hd.failPhase, hd.errCode, fun _ => hd.byte hbusy⟩
    rw [h.r hbusy]
  | reading =>
    rw [phaseRead_of_reading hr] at h₁
    rw [phaseRead_of_reading (h.rState.trans hr)] at h₂
    cases h₁
    cases h₂
    exact readBit_lockstep h (by simp [hr]) (hn hr)
  | sendAck => exact slot (nack := false) hr
  | sendNack => exact slot (nack := true) hr

/-! ### The stop condition -/

theorem commit_of_sameData {row : StepRow} {s₁ s₂ u₁ : State} (hcfg : s₂.cfg = s₁.cfg) (hd : SameData s₁ s₂)
    (h : commit row s₁ = .ok u₁) :
    commit row s₂ = .ok { s₂ with devId := u₁.devId, cal := u₁.cal, ut := u₁.ut, up := u₁.up } := by
  have keep : s₂ = { s₂ with devId := s₁.devId, cal := s₁.cal, ut := s₁.ut, up := s₁.up } := by
    rw [← hd.devId, ← hd.cal, ← hd.ut, ← hd.up]
  rcases commit_cases h with ⟨hr, rfl⟩ | ⟨_, _, b0, rfl, h0, rfl⟩ | ⟨_, _, f, b0, b1, rfl, h0, h1, rfl⟩ |
    ⟨_, _, b0, b1, rfl, h0, h1, rfl⟩ | ⟨_, _, b0, b1, b2, rfl, h0, h1, h2, rfl⟩
  · rw [← keep]
    cases row with
    | read => cases hr
    | write | wait => rfl
  · simp [commit, hd.buf, h0, ← hd.cal, ← hd.ut, ← hd.up]
  · simp [commit, hd.buf, h0, h1, ← hd.devId, ← hd.cal, ← hd.ut, ← hd.up]
  · simp [commit, hd.buf, h0, h1, ← hd.devId, ← hd.cal, ← hd.up]
  · simp [commit, hd.buf, h0, h1, h2, ← hd.devId, ← hd.cal, ← hd.ut, hcfg]

theorem phaseStop_lockstep {row : StepRow} {s₁ s₂ t₁ t₂ : State} (h : SameControl s₁ s₂)
    (h₁ : phaseStop row s₁ = .ok t₁) (h₂ : phaseStop row s₂ = .ok t₂) :
    ∃ es₁ es₂, Lockstep es₁ es₂ s₁ s₂ t₁ t₂ := by
  obtain ⟨he₁, u₁, nxt, hu₁, hn₁, rfl⟩ := phaseStop_cases h₁
  obtain ⟨he₂, u₂, nxt₂, hu₂, hn₂, rfl⟩ := phaseStop_cases h₂
  obtain rfl : nxt₂ = nxt := by
    rw [h.step, hn₁] at hn₂
    exact (Option.some.inj hn₂).symm
  have hf₁ := commit_frame hu₁
  have hf₂ := commit_frame hu₂
  have hw₁ : u₁.w = s₁.w := (congrArg State.w hf₁ :)
  have hw₂ : u₂.w = s₂.w := (congrArg State.w hf₂ :)
  have hr₁ : u₁.r = s₁.r := (congrArg State.r hf₁ :)
  have hr₂ : u₂.r = s₂.r := (congrArg State.r hf₂ :)
  refine lockstep_of_same (es := stopWave) (congrArg State.trace hf₁ :) (congrArg State.trace hf₂ :) ?_ fun hd => ?_
  · refine ⟨?_, rfl, rfl, rfl, ?_, ?_, ?_, ?_⟩ <;>
      simp only [State.enter_cfg, State.enter_w, State.enter_r, hw₁, hw₂, hr₁, hr₂]
    · exact (congrArg State.cfg hf₂).trans (h.cfg.trans (congrArg State.cfg hf₁).symm)
    · exact h.wState
    · exact h.w
    · exact h.rState
    · exact h.r
  · have hu := commit_of_sameData (s₁ := s₁.stopped) (s₂ := s₂.stopped) h.cfg
      ⟨hd.buf, hd.devId, hd.cal, hd.ut, hd.up, hd.failStep, hd.failPhase, hd.errCode, hd.byte⟩ hu₁
    cases hu.symm.trans hu₂
    refine ⟨hd.buf.trans (congrArg State.buf hf₁).symm, rfl, rfl, rfl, rfl,
      hd.failStep.trans (congrArg State.failStep hf₁).symm, hd.failPhase.trans (congrArg State.failPhase hf₁).symm,
      hd.errCode.trans (congrArg State.errCode hf₁).symm, fun hi => ?_⟩
    rw [State.enter_r, hr₁] at hi
    exact absurd he₁.2 hi

/-! ### Every phase -/

theorem seqDispatch_lockstep {row : StepRow} {s₁ s₂ t₁ t₂ : State} (h : SameControl s₁ s₂) (hf : FlightInv row s₁)
    (he : EngineInv s₁) (h₁ : seqDispatch row s₁ = .ok t₁) (h₂ : seqDispatch row s₂ = .ok t₂) :
    ∃ es₁ es₂, Lockstep es₁ es₂ s₁ s₂ t₁ t₂ := by
  obtain ⟨_, hc, _, _, _, _, _, _, _, _, hctx, _, _⟩ := hf
  obtain ⟨_, _, hbits, _, _⟩ := he
  replace hc := (inconsistent_eq_false_iff _ _).1 hc
  cases hwait : row.isWait with
  | true =>
    cases row with
    | read | write => cases hwait
    | wait sleep =>
      obtain ⟨nxt, hn₁, rfl⟩ := waitStep_cases h₁
      obtain ⟨nxt₂, hn₂, rfl⟩ := waitStep_cases h₂
      obtain rfl : nxt₂ = nxt := by
        rw [h.step, hn₁] at hn₂
        exact (Option.some.inj hn₂).symm
      exact lockstep_of_same (es := [sleep]) rfl rfl ⟨h.cfg, rfl, rfl, rfl, h.wState, h.w, h.rState, h.r⟩
        fun hd => hd.moved ..
  | false =>
    have hp₂ := h.phase
    cases hp : s₁.phase with
    | idle => exact absurd hp (hc.active hwait)
    | start =>
      rw [seqDispatch_of_start hwait hp] at h₁
      rw [seqDispatch_of_start hwait (hp₂.trans hp)] at h₂
      obtain ⟨_, rfl⟩ := (phaseStart_ok_iff _ _).1 h₁
      obtain ⟨_, rfl⟩ := (phaseStart_ok_iff _ _).1 h₂
      exact lockstep_of_same rfl rfl ⟨h.cfg, h.step, rfl, h.idx, h.wState, h.w, h.rState, h.r⟩
        fun hd => hd.moved ..
    | restart =>
      rw [seqDispatch_of_restart hwait hp] at h₁
      rw [seqDispatch_of_restart hwait (hp₂.trans hp)] at h₂
      obtain ⟨_, rfl⟩ := (phaseRestart_ok_iff _ _).1 h₁
      obtain ⟨_, rfl⟩ := (phaseRestart_ok_iff _ _).1 h₂
      exact lockstep_of_same rfl rfl ⟨h.cfg, h.step, rfl, h.idx, h.wState, h.w, h.rState, h.r⟩
        fun hd => hd.moved ..
    | stop =>
      rw [seqDispatch_of_stop hwait hp] at h₁
      rw [seqDispatch_of_stop hwait (hp₂.trans hp)] at h₂
      exact phaseStop_lockstep h h₁ h₂
    | stopFail =>
      rw [seqDispatch_of_stopFail hwait hp] at h₁
      rw [seqDispatch_of_stopFail hwait (hp₂.trans hp)] at h₂
      obtain ⟨_, rfl⟩ := (phaseStopFail_ok_iff _ _).1 h₁
      obtain ⟨_, rfl⟩ := (phaseStopFail_ok_iff _ _).1 h₂
      exact lockstep_of_same rfl rfl ⟨h.cfg, rfl, rfl, h.idx, h.wState, h.w, h.rState, h.r⟩
        fun hd => ⟨hd.buf, hd.devId, hd.cal, hd.ut, hd.up, hd.failStep, hd.failPhase, rfl, hd.byte⟩
    | read =>
      rw [seqDispatch_of_read hwait hp] at h₁
      rw [seqDispatch_of_read hwait (hp₂.trans hp)] at h₂
      have hn (hr : s₁.r.state = .reading) : s₁.r.bits ≠ 0 := fun h0 => by
        have hpos := (hbits hr).1
        simp [h0] at hpos
      exact phaseRead_lockstep h (hc.reading hp) hn h₁ h₂
    | addressW | registerSelect | writeData | addressR =>
      have hw : isWritePhase s₁.phase = true := by rw [hp]; rfl
      obtain ⟨⟨byte, succ⟩, hi⟩ := writeItem_isSome hc hwait hw
      rw [seqDispatch_of_writeItem hwait hi] at h₁
      rw [← h.cfg, ← hp₂] at hi
      rw [seqDispatch_of_writeItem hwait hi] at h₂
      exact writePhase_lockstep h (hc.sending hw) (fun hb => (hctx hb).2) h₁ h₂

theorem seqstep_lockstep {s₁ s₂ t₁ t₂ : State} {r₁ r₂ : SeqReturn} (h : SameControl s₁ s₂) (hi : MachineInv s₁)
    (h₁ : seqstep s₁ = .ok (t₁, r₁)) (h₂ : seqstep s₂ = .ok (t₂, r₂)) :
    ∃ es₁ es₂, Lockstep es₁ es₂ s₁ s₂ t₁ t₂ := by
  obtain ⟨_, row, hrow, _, hd₁, _⟩ := (seqstep_ok_iff _ _ _).1 h₁
  obtain ⟨_, row₂, hrow₂, _, hd₂, _⟩ := (seqstep_ok_iff _ _ _).1 h₂
  rw [h.cfg, h.step, hrow] at hrow₂
  cases hrow₂
  exact seqDispatch_lockstep h (flightInv_of_sequencerInv hi.2 hrow) hi.1 hd₁ hd₂

end Sys2Proof.Machine
end

/-! PROOFS. Two acquisitions side by side, to their ends (R207). -/
section
namespace Sys2Proof.Machine

/-! ### An acquisition and its events -/

/-- An acquisition in flight in `s` ends in `v` and emits `es`, a failed one's final stop condition left out. -/
inductive Acquires : List BusEvent → State → State → Prop
  | done {s : State} (hd : s.step = .done) : Acquires [] s s
  | failed {s v : State} {r : SeqReturn} (hfl : InFlight s) (hp : s.phase = .stopFail) (h : seqstep s = .ok (v, r)) :
      Acquires [] s v
  | step {s t v : State} {r : SeqReturn} {es fs : List BusEvent} (hfl : InFlight s) (hp : s.phase ≠ .stopFail)
      (h : seqstep s = .ok (t, r)) (ht : t.trace = s.trace ++ es) (hrest : Acquires fs t v) :
      Acquires (es ++ fs) s v

theorem InFlight.not_done {s : State} (h : InFlight s) : s.step ≠ .done := by
  intro hd
  rw [InFlight, hd] at h
  cases h

theorem InFlight.not_failed {s : State} (h : InFlight s) : s.step ≠ .failed := by
  intro hd
  rw [InFlight, hd] at h
  cases h

theorem acquires_of_run {n : Nat} {s v : State} (h : SeqRun InFlight n s v) (hi : MachineInv s)
    (hs : s.step ≠ .failed) (hv : v.step = .done ∨ v.step = .failed) : ∃ es, Acquires es s v := by
  induction h with
  | refl s => exact ⟨[], .done (hv.resolve_right hs)⟩
  | @step n s t v r hfl h hrun ih =>
    by_cases hp : s.phase = .stopFail
    · have hft : t.step = .failed := by rw [(seqstep_of_stopFail hi.2 hp h).2]
      cases hrun with
      | refl => exact ⟨[], .failed hfl hp h⟩
      | step hflt => exact absurd hft hflt.not_failed
    · obtain ⟨fs, hfs⟩ := ih (seqstep_machineInv hi h) (fun hf => hp (stopFail_of_failed hi hfl h hf)) hv
      obtain ⟨es, ht, _⟩ := (Runs.seqstep h).emits
      exact ⟨es ++ fs, .step hfl hp h ht hfs⟩

/-- An acquisition that has gone to STOP_FAIL fails, and emits its stop condition alone (R195). -/
theorem Acquires.of_stopFail {es : List BusEvent} {s v : State} (h : Acquires es s v) (hi : MachineInv s)
    (hfl : s.step ≠ .done) (hp : s.phase = .stopFail) : es = [] ∧ v.step = .failed := by
  cases h with
  | done hd => exact absurd hd hfl
  | failed _ _ h => exact ⟨rfl, by rw [(seqstep_of_stopFail hi.2 hp h).2]⟩
  | step _ hne => exact absurd hp hne

theorem Acquires.trace {es : List BusEvent} {s v : State} (h : Acquires es s v) (hi : MachineInv s) :
    v.trace = s.trace ++ es ++ if v.step = .failed then stopWave else [] := by
  induction h with
  | done hd => simp [hd]
  | failed _ hp h =>
    obtain ⟨_, rfl⟩ := seqstep_of_stopFail hi.2 hp h
    simp
  | step _ _ h ht _ ih => simp only [ih (seqstep_machineInv hi h), ht, List.append_assoc]

theorem delivered_frame (v : State) :
    v.delivered = { v with errCode := v.delivered.errCode, result := v.delivered.result } := by
  unfold State.delivered
  split
  · rfl
  · split <;> rfl

@[simp] theorem delivered_step (v : State) : v.delivered.step = v.step :=
  (congrArg State.step (delivered_frame v) :)

@[simp] theorem delivered_trace (v : State) : v.delivered.trace = v.trace :=
  (congrArg State.trace (delivered_frame v) :)

@[simp] theorem delivered_devId (v : State) : v.delivered.devId = v.devId :=
  (congrArg State.devId (delivered_frame v) :)

@[simp] theorem delivered_cal (v : State) : v.delivered.cal = v.cal :=
  (congrArg State.cal (delivered_frame v) :)

@[simp] theorem delivered_ut (v : State) : v.delivered.ut = v.ut :=
  (congrArg State.ut (delivered_frame v) :)

@[simp] theorem delivered_up (v : State) : v.delivered.up = v.up :=
  (congrArg State.up (delivered_frame v) :)

/-- The acquisition that ACQUIRE runs from `s`, as a whole: it ends in `v` and emits `es`. -/
structure Acquired (es : List BusEvent) (s v : State) : Prop where
  acquires : Acquires es s.clearAcquisition v
  ends : v.step = .done ∨ v.step = .failed
  exec : exec .acquire s = .next (v.delivered.returning (.result v.delivered.result))
  trace : v.trace = s.trace ++ es ++ if v.step = .failed then stopWave else []

theorem exists_acquired {s : State} (h : s.MayAcquire) : ∃ es v, Acquired es s v := by
  obtain ⟨n, v, hrun, hn, hend⟩ := acquisition_ends h
  obtain ⟨es, hes⟩ := acquires_of_run hrun (clearAcquisition_machineInv h) nofun hend
  exact ⟨es, v, hes, hend, exec_acquire_of_run h hrun hn hend, hes.trace (clearAcquisition_machineInv h)⟩

/-! ### Up to the first NACK -/

/-- The core's own events of two acquisitions are the same, up to where one of them fails. -/
def AgreeToFailure (es₁ es₂ : List BusEvent) (v₁ v₂ : State) : Prop :=
  (es₁.map BusEvent.own <+: es₂.map BusEvent.own ∧ v₁.step = .failed)
    ∨ (es₂.map BusEvent.own <+: es₁.map BusEvent.own ∧ v₂.step = .failed)
    ∨ es₁.map BusEvent.own = es₂.map BusEvent.own

theorem AgreeToFailure.append {es₁ es₂ fs₁ fs₂ : List BusEvent} {v₁ v₂ : State}
    (hes : es₁.map BusEvent.own = es₂.map BusEvent.own) (h : AgreeToFailure fs₁ fs₂ v₁ v₂) :
    AgreeToFailure (es₁ ++ fs₁) (es₂ ++ fs₂) v₁ v₂ := by
  simpa only [AgreeToFailure, List.map_append, hes, List.prefix_append_right_inj, List.append_cancel_left_eq] using h

theorem AgreeToFailure.prefix_of_done {es₁ es₂ : List BusEvent} {v₁ v₂ : State} (h : AgreeToFailure es₁ es₂ v₁ v₂)
    (hd : v₁.step = .done) : es₂.map BusEvent.own <+: es₁.map BusEvent.own := by
  rcases h with ⟨_, hf⟩ | ⟨h, _⟩ | h
  · simp [hd] at hf
  · exact h
  · exact h ▸ List.prefix_rfl

theorem AgreeToFailure.symm {es₁ es₂ : List BusEvent} {v₁ v₂ : State} (h : AgreeToFailure es₁ es₂ v₁ v₂) :
    AgreeToFailure es₂ es₁ v₂ v₁ := by
  rcases h with h | h | h
  · exact .inr (.inl h)
  · exact .inl h
  · exact .inr (.inr h.symm)

/-- A SEQSTEP that goes to STOP_FAIL stays in its step. -/
theorem not_done_of_stopFail {s t : State} {r : SeqReturn} (h : seqstep s = .ok (t, r))
    (hp : t.phase = .stopFail) : t.step ≠ .done := by
  intro hd
  have hidle := (seqstep_stopped h (.inr (.inr (.inl hd)))).2.2.2
  simp [hp] at hidle

theorem acquires_agree {es₁ es₂ : List BusEvent} {s₁ s₂ v₁ v₂ : State} (h₁ : Acquires es₁ s₁ v₁)
    (h₂ : Acquires es₂ s₂ v₂) (hs : SameControl s₁ s₂) (hi₁ : MachineInv s₁) (hi₂ : MachineInv s₂) :
    AgreeToFailure es₁ es₂ v₁ v₂ := by
  induction h₁ generalizing s₂ es₂ with
  | done hd =>
    cases h₂ with
    | done => exact .inr (.inr rfl)
    | failed hfl => exact absurd (hs.step.trans hd) hfl.not_done
    | step hfl => exact absurd (hs.step.trans hd) hfl.not_done
  | failed hfl hp h =>
    have h₂ := h₂.of_stopFail hi₂ (hs.step ▸ hfl.not_done) (hs.phase.trans hp)
    exact .inr (.inr (by rw [h₂.1]))
  | @step s₁ t₁ v₁ r₁ es₁ fs₁ hfl₁ hp₁ h₁ ht₁ hrest₁ ih =>
    cases h₂ with
    | done hd => exact absurd (hs.step.symm.trans hd) hfl₁.not_done
    | failed _ hp => exact absurd (hs.phase.symm.trans hp) hp₁
    | @step _ t₂ _ r₂ es₂ fs₂ hfl₂ hp₂ h₂ ht₂ hrest₂ =>
      have hti₁ := seqstep_machineInv hi₁ h₁
      have hti₂ := seqstep_machineInv hi₂ h₂
      obtain ⟨es, es', hstep⟩ := seqstep_lockstep hs hi₁ h₁ h₂
      obtain rfl : es₁ = es := List.append_cancel_left (ht₁.symm.trans hstep.trace₁)
      obtain rfl : es₂ = es' := List.append_cancel_left (ht₂.symm.trans hstep.trace₂)
      refine .append hstep.own ?_
      rcases hstep.control with hp | hp | hc
      · obtain ⟨rfl, hf⟩ := hrest₁.of_stopFail hti₁ (not_done_of_stopFail h₁ hp) hp
        exact .inl ⟨List.nil_prefix, hf⟩
      · obtain ⟨rfl, hf⟩ := hrest₂.of_stopFail hti₂ (not_done_of_stopFail h₂ hp) hp
        exact .inr (.inl ⟨List.nil_prefix, hf⟩)
      · exact ih hrest₂ hc hti₁ hti₂

theorem clearAcquisition_sameControl {s₁ s₂ : State} (h₁ : s₁.MayAcquire) (h₂ : s₂.MayAcquire)
    (hcfg : s₁.cfg = s₂.cfg) : SameControl s₁.clearAcquisition s₂.clearAcquisition :=
  ⟨hcfg.symm, rfl, rfl, rfl, h₂.1.2.1.trans h₁.1.2.1.symm, fun hi => absurd h₁.1.2.1 hi,
    h₂.1.2.2.trans h₁.1.2.2.symm, fun hi => absurd h₁.1.2.2 hi⟩

/-! ### Answered alike -/

theorem acquires_same {es₁ es₂ : List BusEvent} {s₁ s₂ v₁ v₂ : State} {bs rest₁ rest₂ : List Bit}
    (h₁ : Acquires es₁ s₁ v₁) (h₂ : Acquires es₂ s₂ v₂) (hs : SameControl s₁ s₂) (hd : SameData s₁ s₂)
    (hi₁ : MachineInv s₁) (hi₂ : MachineInv s₂) (hr₁ : ReleasedInv s₁) (hr₂ : ReleasedInv s₂)
    (ha₁ : s₁.env.answers = bs ++ rest₁) (ha₂ : s₂.env.answers = bs ++ rest₂)
    (hn : (drawnBits es₁).length ≤ bs.length) : es₁ = es₂ ∧ SameControl v₁ v₂ ∧ SameData v₁ v₂ := by
  induction h₁ generalizing s₂ es₂ bs with
  | done hdone =>
    cases h₂ with
    | done => exact ⟨rfl, hs, hd⟩
    | failed hfl => exact absurd (hs.step.trans hdone) hfl.not_done
    | step hfl => exact absurd (hs.step.trans hdone) hfl.not_done
  | @failed s₁ v₁ r₁ hfl hp h₁ =>
    cases h₂ with
    | done hdone => exact absurd (hs.step.symm.trans hdone) hfl.not_done
    | step _ hp₂ => exact absurd (hs.phase.trans hp) hp₂
    | failed _ hp₂ h₂ =>
      obtain ⟨_, rfl⟩ := seqstep_of_stopFail hi₁.2 hp h₁
      obtain ⟨_, rfl⟩ := seqstep_of_stopFail hi₂.2 hp₂ h₂
      exact ⟨rfl, ⟨hs.cfg, rfl, rfl, hs.idx, hs.wState, hs.w, hs.rState, hs.r⟩,
        ⟨hd.buf, hd.devId, hd.cal, hd.ut, hd.up, hd.failStep, hd.failPhase, rfl, hd.byte⟩⟩
  | @step s₁ t₁ v₁ r₁ es₁ fs₁ hfl₁ hp₁ h₁ ht₁ hrest₁ ih =>
    cases h₂ with
    | done hdone => exact absurd (hs.step.symm.trans hdone) hfl₁.not_done
    | failed _ hp => exact absurd (hs.phase.symm.trans hp) hp₁
    | @step _ t₂ _ r₂ es₂ fs₂ hfl₂ hp₂ h₂ ht₂ hrest₂ =>
      obtain ⟨es, es', hstep⟩ := seqstep_lockstep hs hi₁ h₁ h₂
      obtain rfl : es₁ = es := List.append_cancel_left (ht₁.symm.trans hstep.trace₁)
      obtain rfl : es₂ = es' := List.append_cancel_left (ht₂.symm.trans hstep.trace₂)
      obtain ⟨es, hdraw₁⟩ := seqstep_draws hr₁ h₁
      obtain rfl : es₁ = es := List.append_cancel_left (ht₁.symm.trans hdraw₁.trace)
      obtain ⟨es', hdraw₂⟩ := seqstep_draws hr₂ h₂
      obtain rfl : es₂ = es' := List.append_cancel_left (ht₂.symm.trans hdraw₂.trace)
      rw [drawnBits_append, List.length_append] at hn
      have hlen : (drawnBits es₂).length = (drawnBits es₁).length := by
        rw [drawnBits_length, drawnBits_length, hstep.own]
      have htake : (bs.take (drawnBits es₁).length).length = (drawnBits es₁).length := by
        rw [List.length_take]
        omega
      rw [← List.take_append_drop (drawnBits es₁).length bs, List.append_assoc] at ha₁ ha₂
      obtain ⟨hb₁, ha₁⟩ := hdraw₁.answers _ _ ha₁ htake
      obtain ⟨hb₂, ha₂⟩ := hdraw₂.answers _ _ ha₂ (htake.trans hlen.symm)
      obtain ⟨rfl, hc, hdata⟩ := hstep.same (hb₁.trans hb₂.symm)
      obtain ⟨rfl, hv⟩ := ih hrest₂ hc (hdata hd) (seqstep_machineInv hi₁ h₁) (seqstep_machineInv hi₂ h₂)
        (seqstep_releasedInv hr₁ h₁) (seqstep_releasedInv hr₂ h₂) ha₁ ha₂ (by rw [List.length_drop]; omega)
      exact ⟨rfl, hv⟩

/-! ### An acquisition samples at most 272 times (R205) -/

/-- The same state with other answers ready. -/
def State.answering (s : State) (bs : List Bit) : State := { s with env := { s.env with answers := bs } }

/-- Under every configuration there is an acquisition to DONE, and it samples 272 times (R205, R210). -/
theorem exists_acquired_done {s : State} (h : s.MayAcquire) (cal : List (Byte × Byte)) (hlen : cal.length = 11) :
    ∃ (s' : State) (es : List BusEvent) (v : State), s'.MayAcquire ∧ s'.cfg = s.cfg ∧ Acquired es s' v ∧ v.step = .done
      ∧ (drawnBits es).length = 272 := by
  have h' : (s.answering (acquisitionAnswers 0 cal (0, 0) (0, 0, 0))).MayAcquire := h
  obtain ⟨t, _, ht, _, hd, _, _, _, _, _, _, _, htr, _, hcounts⟩ :=
    acquireDeliversData _ 0 0 0 0 0 0 cal [] h' hlen (List.append_nil _).symm
  obtain ⟨es, v, hv⟩ := exists_acquired h'
  cases hv.exec.symm.trans ht
  have hd : v.step = .done := (delivered_step v).symm.trans hd
  have htr := (delivered_trace v).symm.trans htr
  rw [hv.trace, hd, if_neg (by decide), List.append_nil] at htr
  refine ⟨_, es, v, h', rfl, hv, hd, ?_⟩
  rw [drawnBits_length_eq_sample, List.append_cancel_left htr, hcounts]

theorem acquired_agree {es₁ es₂ : List BusEvent} {s₁ s₂ v₁ v₂ : State} (h₁ : s₁.MayAcquire) (h₂ : s₂.MayAcquire)
    (hcfg : s₁.cfg = s₂.cfg) (hv₁ : Acquired es₁ s₁ v₁) (hv₂ : Acquired es₂ s₂ v₂) : AgreeToFailure es₁ es₂ v₁ v₂ :=
  acquires_agree hv₁.acquires hv₂.acquires (clearAcquisition_sameControl h₁ h₂ hcfg) (clearAcquisition_machineInv h₁)
    (clearAcquisition_machineInv h₂)

/-- Every acquisition agrees with that one to its failure. -/
theorem acquired_draws_le {es : List BusEvent} {s v : State} (h : s.MayAcquire) (hv : Acquired es s v) :
    (drawnBits es).length ≤ 272 := by
  obtain ⟨s', es', v', h', hcfg, hv', hd', h272⟩ :=
    exists_acquired_done h (List.replicate 11 (0, 0)) List.length_replicate
  have hagree := acquired_agree h' h hcfg hv' hv
  rw [← h272, drawnBits_length, drawnBits_length]
  exact (hagree.prefix_of_done hd').sublist.countP_le

/-! ### What is delivered -/

theorem compInput_congr {s t : State} (hcal : t.cal = s.cal) (hut : t.ut = s.ut) (hup : t.up = s.up) :
    t.compInput = s.compInput := by
  unfold State.compInput
  rw [hcal, hut, hup]

/-- Ended acquisitions with the same data deliver the same. -/
theorem delivered_congr {v₁ v₂ : State} (hi : MachineInv v₁) (hc : SameControl v₁ v₂) (hd : SameData v₁ v₂)
    (hend : v₁.step = .done ∨ v₁.step = .failed) :
    v₂.delivered.result = v₁.delivered.result ∧ v₂.delivered.errCode = v₁.delivered.errCode := by
  rcases hend with hdone | hf
  · obtain ⟨i, hi⟩ := compInput_of_done (hi.2.2 hdone)
    have hi₂ : v₂.compInput = some i := (compInput_congr hd.cal hd.ut hd.up).trans hi
    rw [delivered_of_done hdone hi, delivered_of_done (hc.step.trans hdone) hi₂, hc.cfg]
    exact ⟨rfl, rfl⟩
  · rw [delivered_of_failed hf, delivered_of_failed (hc.step.trans hf)]
    refine ⟨?_, hd.errCode⟩
    simp [State.setBusError, hd.failStep, hd.failPhase]

theorem Acquires.machineInv {es : List BusEvent} {s v : State} (h : Acquires es s v) (hi : MachineInv s) :
    MachineInv v := by
  induction h with
  | done => exact hi
  | failed _ _ h => exact seqstep_machineInv hi h
  | step _ _ h _ _ ih => exact ih (seqstep_machineInv hi h)

theorem acquired_same {es₁ es₂ : List BusEvent} {s₁ s₂ v₁ v₂ : State} {bs rest₁ rest₂ : List Bit}
    (h₁ : s₁.MayAcquire) (h₂ : s₂.MayAcquire) (hcfg : s₁.cfg = s₂.cfg) (hbs : 272 ≤ bs.length)
    (ha₁ : s₁.env.answers = bs ++ rest₁) (ha₂ : s₂.env.answers = bs ++ rest₂) (hv₁ : Acquired es₁ s₁ v₁)
    (hv₂ : Acquired es₂ s₂ v₂) : es₁ = es₂ ∧ SameControl v₁ v₂ ∧ SameData v₁ v₂ :=
  acquires_same hv₁.acquires hv₂.acquires (clearAcquisition_sameControl h₁ h₂ hcfg)
    ⟨rfl, rfl, rfl, rfl, rfl, rfl, rfl, rfl, fun hr => absurd h₁.1.2.2 hr⟩ (clearAcquisition_machineInv h₁)
    (clearAcquisition_machineInv h₂) (astart_releasedInv (astart_ok h₁)) (astart_releasedInv (astart_ok h₂)) ha₁ ha₂
    ((acquired_draws_le h₁ hv₁).trans hbs)

/-- Settles O54: two acquisitions are in lockstep until one samples what the other does not, and at most 272 samples are
taken. -/
theorem acquireIsRepeatable : Obligations.AcquireIsRepeatable := by
  refine ⟨fun s₁ s₂ bs rest₁ rest₂ h₁ h₂ hcfg hbs ha₁ ha₂ => ?_, fun s₁ s₂ h₁ h₂ hcfg => ?_⟩
  · obtain ⟨es, v₁, hv₁⟩ := exists_acquired h₁
    obtain ⟨es₂, v₂, hv₂⟩ := exists_acquired h₂
    obtain ⟨rfl, hc, hd⟩ := acquired_same h₁ h₂ hcfg hbs ha₁ ha₂ hv₁ hv₂
    have hi₁ := hv₁.acquires.machineInv (clearAcquisition_machineInv h₁)
    obtain ⟨hresult, herr⟩ := delivered_congr hi₁ hc hd hv₁.ends
    have htr₂ := hv₂.trace
    rw [hc.step] at htr₂
    refine ⟨_, _, es ++ if v₁.step = .failed then stopWave else [], hv₁.exec, hv₂.exec, ?_⟩
    simp [hv₁.trace, htr₂, hc.step, hd.devId, hd.cal, hd.ut, hd.up, hresult, herr]
  · obtain ⟨es₁, v₁, hv₁⟩ := exists_acquired h₁
    obtain ⟨es₂, v₂, hv₂⟩ := exists_acquired h₂
    have hagree := acquired_agree h₁ h₂ hcfg hv₁ hv₂
    refine ⟨_, _, es₁, es₂, hv₁.exec, hv₂.exec, ?_⟩
    simp only [State.returning_trace, State.returning_step, delivered_trace, delivered_step]
    refine ⟨hv₁.trace, hv₂.trace, ?_, hagree.prefix_of_done, hagree.symm.prefix_of_done⟩
    rcases hagree with ⟨h, _⟩ | ⟨h, _⟩ | h
    · exact .inl h
    · exact .inr h
    · exact .inl (h ▸ List.prefix_rfl)

end Sys2Proof.Machine
end

/-! PROOFS. The calculator as one sequence of checked nodes, and the errors it may give (R231 to R240, R272). -/
section
namespace Sys2Proof.Machine

/-! ### Each stage and what follows it: the first failing node is the outcome, else the stage's values go on

The binds are associated first, so that each check meets all that follows it. -/

theorem compTemperature_bind {α : Type} (i : CompInput) (f : Int × Int → Except CompError α) :
    let t1 := i.ut - i.ac6
    let t2 := t1 * i.ac5
    let x1 := t2 / 2 ^ 15
    let t3 := i.mc * 2048
    let t4 := x1 + i.md
    let t5 := t3.tdiv t4
    let t6 := x1 + t5
    let t7 := t6 + 8
    (compTemperature i >>= f) =
      if ¬ inS32 t1 then .error (.ovf .t1) else if ¬ inS32 t2 then .error (.ovf .t2)
      else if ¬ inS32 t3 then .error (.ovf .t3) else if ¬ inS32 t4 then .error (.ovf .t4)
      else if t4 = 0 then .error (.div0 .t4)
      else if ¬ inS32 t5 then .error (.ovf .t5) else if ¬ inS32 t6 then .error (.ovf .t6)
      else if ¬ inS32 t7 then .error (.ovf .t7)
      else f (t6, t7 / 2 ^ 4) := by
  simp only [compTemperature, bind_assoc, pure_bind, sar]
  simp only [nodeS_bind, divisor_bind]

theorem compB3_bind {α : Type} (i : CompInput) (oss : Nat) (b5 : Int) (f : Int × Int × Int → Except CompError α) :
    let p1 := b5 - 4000
    let p2 := p1 * p1
    let s12 := p2 / 2 ^ 12
    let p3 := i.b2 * s12
    let p4 := i.ac2 * p1
    let p5 := p3 / 2 ^ 11 + p4 / 2 ^ 11
    let p6 := i.ac1 * 4
    let p7 := p6 + p5
    let p8 := p7 * 2 ^ oss
    let p9 := p8 + 2
    (compB3 i oss b5 >>= f) =
      if ¬ inS32 p1 then .error (.ovf .p1) else if ¬ inS32 p2 then .error (.ovf .p2)
      else if ¬ inS32 p3 then .error (.ovf .p3) else if ¬ inS32 p4 then .error (.ovf .p4)
      else if ¬ inS32 p5 then .error (.ovf .p5) else if ¬ inS32 p6 then .error (.ovf .p6)
      else if ¬ inS32 p7 then .error (.ovf .p7) else if ¬ inS32 p8 then .error (.ovf .p8)
      else if ¬ inS32 p9 then .error (.ovf .p9)
      else f (p1, s12, p9 / 2 ^ 2) := by
  simp only [compB3, bind_assoc, pure_bind, sar]
  simp only [nodeS_bind]

theorem compB4B7_bind {α : Type} (i : CompInput) (oss : Nat) (b6 s12 b3 : Int)
    (f : Int × Int → Except CompError α) :
    let p10 := i.ac3 * b6
    let p11 := i.b1 * s12
    let p12 := p10 / 2 ^ 13 + p11 / 2 ^ 16
    let p13 := p12 + 2
    let p14 := p13 / 2 ^ 2 + 32768
    let p15 := i.ac4 * p14
    let p16 := i.up - b3
    let p17 := p16 * (50000 / 2 ^ oss)
    (compB4B7 i oss b6 s12 b3 >>= f) =
      if ¬ inS32 p10 then .error (.ovf .p10) else if ¬ inS32 p11 then .error (.ovf .p11)
      else if ¬ inS32 p12 then .error (.ovf .p12) else if ¬ inS32 p13 then .error (.ovf .p13)
      else if ¬ inU32 p14 then .error (.ovf .p14) else if ¬ inU32 p15 then .error (.ovf .p15)
      else if ¬ inU32 p16 then .error (.ovf .p16) else if ¬ inU32 p17 then .error (.ovf .p17)
      else f (p15 / 2 ^ 15, p17) := by
  simp only [compB4B7, bind_assoc, pure_bind, sar]
  simp only [nodeS_bind, nodeU_bind]

theorem compBase_bind {α : Type} (b4 b7 : Int) (f : Int → Except CompError α) :
    let p19 := b7 / b4 * 2
    let p := if b7 < 2147483648 then b7 * 2 / b4 else p19
    (compBase b4 b7 >>= f) =
      if b4 = 0 then .error (.div0 .p18)
      else if ¬ b7 < 2147483648 ∧ ¬ inU32 p19 then .error (.ovf .p19)
      else if ¬ inS32 p then .error (.ovf .p20) else f p := by
  by_cases hb : b7 < 2147483648
  · simp only [compBase, hb, if_true, bind_assoc, pure_bind, not_true, false_and, if_false]
    simp only [divisor_bind, nodeS_bind]
  · simp only [compBase, hb, if_false, bind_assoc, not_false_iff, true_and]
    simp only [divisor_bind, nodeU_bind, nodeS_bind]

theorem compCorrect_bind {α : Type} (p : Int) (f : Int → Except CompError α) :
    let p21 := p / 2 ^ 8 * (p / 2 ^ 8)
    let p22 := p21 * 3038
    let p23 := -7357 * p
    let p24 := p22 / 2 ^ 16 + p23 / 2 ^ 16
    let p25 := p24 + 3791
    let p26 := p + p25 / 2 ^ 4
    (compCorrect p >>= f) =
      if ¬ inS32 p21 then .error (.ovf .p21) else if ¬ inS32 p22 then .error (.ovf .p22)
      else if ¬ inS32 p23 then .error (.ovf .p23) else if ¬ inS32 p24 then .error (.ovf .p24)
      else if ¬ inS32 p25 then .error (.ovf .p25) else if ¬ inS32 p26 then .error (.ovf .p26)
      else f p26 := by
  simp only [compCorrect, bind_assoc, sar]
  simp only [nodeS_bind]

/-- Settles O46: the five stages, each with what follows it, in the order of R236 to R240. -/
theorem compIsNodeSequence : Obligations.CompIsNodeSequence := by
  intro i oss
  simp only [comp, compTemperature_bind, compB3_bind, compB4B7_bind, compBase_bind, compCorrect_bind, pure, Except.pure]

/-- Settles O49: a closed evaluation of `comp`. -/
theorem workedExample : Obligations.WorkedExample := by
  unfold Obligations.WorkedExample
  decide

/-! ### The nodes an error names -/

/-- The errors R272 and R233 allow: a division error at T4 or P18, an overflow at any node but P18 (log 14). -/
def CompError.Admissible : CompError → Prop
  | .div0 n => n = .t4 ∨ n = .p18
  | .ovf n => n ≠ .p18

/-- A part of the calculator whose only errors are admissible. -/
def ErrsAdmissibly {α : Type} (x : Except CompError α) : Prop := ∀ e, x = .error e → e.Admissible

theorem ErrsAdmissibly.bind {α β : Type} {x : Except CompError α} {f : α → Except CompError β}
    (hx : ErrsAdmissibly x) (hf : ∀ a, ErrsAdmissibly (f a)) : ErrsAdmissibly (x >>= f) := by
  intro e h
  rcases except_bind_error_iff.1 h with h | ⟨a, _, h⟩
  · exact hx e h
  · exact hf a e h

theorem ErrsAdmissibly.pure {α : Type} (a : α) : ErrsAdmissibly (Pure.pure a) := fun _ h => nomatch h

theorem nodeS_errsAdmissibly {n : NodeId} (hn : n ≠ .p18) (v : Int) : ErrsAdmissibly (nodeS n v) := by
  intro e h
  obtain ⟨_, rfl⟩ := (nodeS_error_iff n v e).1 h
  exact hn

theorem nodeU_errsAdmissibly {n : NodeId} (hn : n ≠ .p18) (v : Int) : ErrsAdmissibly (nodeU n v) := by
  intro e h
  obtain ⟨_, rfl⟩ := (nodeU_error_iff n v e).1 h
  exact hn

theorem divisor_errsAdmissibly {n : NodeId} (hn : n = .t4 ∨ n = .p18) (v : Int) :
    ErrsAdmissibly (divisor n v) := by
  intro e h
  obtain ⟨_, rfl⟩ := (divisor_error_iff n v e).1 h
  exact hn

theorem compTemperature_errsAdmissibly (i : CompInput) : ErrsAdmissibly (compTemperature i) := by
  unfold compTemperature
  iterate 4 refine .bind (nodeS_errsAdmissibly (by decide) _) fun _ => ?_
  refine .bind (divisor_errsAdmissibly (.inl rfl) _) fun _ => ?_
  iterate 3 refine .bind (nodeS_errsAdmissibly (by decide) _) fun _ => ?_
  exact .pure _

theorem compB3_errsAdmissibly (i : CompInput) (oss : Nat) (b5 : Int) : ErrsAdmissibly (compB3 i oss b5) := by
  unfold compB3
  iterate 9 refine .bind (nodeS_errsAdmissibly (by decide) _) fun _ => ?_
  exact .pure _

theorem compB4B7_errsAdmissibly (i : CompInput) (oss : Nat) (b6 s12 b3 : Int) :
    ErrsAdmissibly (compB4B7 i oss b6 s12 b3) := by
  unfold compB4B7
  iterate 4 refine .bind (nodeS_errsAdmissibly (by decide) _) fun _ => ?_
  iterate 4 refine .bind (nodeU_errsAdmissibly (by decide) _) fun _ => ?_
  exact .pure _

theorem compBase_errsAdmissibly (b4 b7 : Int) : ErrsAdmissibly (compBase b4 b7) := by
  refine .bind (divisor_errsAdmissibly (.inr rfl) _) fun _ => ?_
  split
  · exact .bind (.pure _) fun _ => nodeS_errsAdmissibly (by decide) _
  · exact .bind (nodeU_errsAdmissibly (by decide) _) fun _ => nodeS_errsAdmissibly (by decide) _

theorem compCorrect_errsAdmissibly (p : Int) : ErrsAdmissibly (compCorrect p) := by
  unfold compCorrect
  iterate 5 refine .bind (nodeS_errsAdmissibly (by decide) _) fun _ => ?_
  exact nodeS_errsAdmissibly (by decide) _

theorem comp_errsAdmissibly (i : CompInput) (oss : Nat) : ErrsAdmissibly (comp i oss) :=
  .bind (compTemperature_errsAdmissibly i) fun _ => .bind (compB3_errsAdmissibly i oss _) fun _ =>
    .bind (compB4B7_errsAdmissibly i oss _ _ _) fun _ => .bind (compBase_errsAdmissibly _ _) fun _ =>
    .bind (compCorrect_errsAdmissibly _) fun _ => .pure _

/-- Settles O47: every check names its own node, and the checks at T4 and P18 are the only divisor checks. -/
theorem compErrorNodes : Obligations.CompErrorNodes :=
  fun i oss _ => ⟨comp_errsAdmissibly i oss _, comp_errsAdmissibly i oss _⟩

end Sys2Proof.Machine
end

/-! PROOFS. The byte assembly (R246), and COMPENSATE on the thirteen fields (R243, R38, R39). -/
section
namespace Sys2Proof.Machine

/-! ### Byte assembly -/

theorem asm16_toNat (h l : Byte) : (asm16 h l).toNat = h.toNat * 256 + l.toNat := by
  rw [asm16, BitVec.toNat_append, ← Nat.shiftLeft_add_eq_or_of_lt l.isLt, Nat.shiftLeft_eq]

theorem asm24_toNat (h m l : Byte) : (asm24 h m l).toNat = h.toNat * 65536 + m.toNat * 256 + l.toNat := by
  have hcat : asm24 h m l = asm16 h m ++ l := rfl
  rw [hcat, BitVec.toNat_append, ← Nat.shiftLeft_add_eq_or_of_lt l.isLt, Nat.shiftLeft_eq, asm16_toNat]
  omega

theorem CalField.value_eq (f : CalField) (p : BitVec 16) :
    f.value p = if f = .ac4 ∨ f = .ac5 ∨ f = .ac6 then (p.toNat : Int) else p.toInt := by
  cases f <;> rfl

theorem asm16s_eq (h l : Byte) :
    asm16s h l = if h.toNat * 256 + l.toNat < 32768 then (h.toNat * 256 + l.toNat : Int)
      else (h.toNat * 256 + l.toNat : Int) - 65536 := by
  rw [asm16s, BitVec.toInt_eq_toNat_cond, asm16_toNat]
  split <;> split <;> omega

/-- Settles O45: each function is the concatenation of its bytes, read in its signedness. -/
theorem byteAssembly : Obligations.ByteAssembly :=
  ⟨fun h l => ⟨asm16_toNat h l, asm16s_eq h l⟩, asm24_toNat, CalField.value_eq, by decide⟩

/-! ### The inputs -/

theorem compInput_of_populated {s : State} {ac1 ac2 ac3 ac4 ac5 ac6 b1 b2 mb mc md ut : BitVec 16} {up : BitVec 19}
    (hcal : s.cal = ⟨some ac1, some ac2, some ac3, some ac4, some ac5, some ac6, some b1, some b2, some mb, some mc,
      some md⟩) (hut : s.ut = some ut) (hup : s.up = some up) :
    s.compInput = some
      { ac1 := ac1.toInt, ac2 := ac2.toInt, ac3 := ac3.toInt, ac4 := ac4.toNat, ac5 := ac5.toNat
        ac6 := ac6.toNat, b1 := b1.toInt, b2 := b2.toInt, mb := mb.toInt, mc := mc.toInt, md := md.toInt
        ut := ut.toNat, up := up.toNat } := by
  unfold State.compInput
  rw [hcal, hut, hup]
  rfl

theorem populated_of_compInput {s : State} {i : CompInput} (h : s.compInput = some i) :
    (∀ f, (s.cal.get f).isSome) ∧ s.ut.isSome ∧ s.up.isSome := by
  iterate 13 obtain ⟨_, _, h⟩ := Option.bind_eq_some_iff.1 h
  refine ⟨fun f => ?_, Option.isSome_of_eq_some ‹s.ut = _›, Option.isSome_of_eq_some ‹s.up = _›⟩
  cases f <;> exact Option.isSome_of_eq_some (by assumption)

theorem compInput_eq_none {s : State} {f : CalField} (h : s.cal.get f = none ∨ s.ut = none ∨ s.up = none) :
    s.compInput = none := by
  refine Option.eq_none_iff_forall_ne_some.2 fun i hi => ?_
  obtain ⟨hcal, hut, hup⟩ := populated_of_compInput hi
  rcases h with h | h | h
  · exact Option.ne_none_iff_isSome.2 (hcal f) h
  · exact Option.ne_none_iff_isSome.2 hut h
  · exact Option.ne_none_iff_isSome.2 hup h

/-! ### The effect -/

theorem exec_compensate_populated {s : State} {i : CompInput} (h : s.HostMay) (hi : s.compInput = some i) :
    exec .compensate s = .next { s with
      errCode := (compResult (comp i s.cfg.oss.toNat)).1, result := some (compResult (comp i s.cfg.oss.toNat)).2
      ret := .result (some (compResult (comp i s.cfg.oss.toNat)).2) } :=
  let ⟨hc, hb, hr⟩ := h
  exec_compensate hc ((compensate_ok_iff _ _).2 ⟨hb, hr, i, hi, rfl⟩)

theorem compensate_unpopulated {s : State} (h : s.HostMay) (hi : s.compInput = none) :
    compensate s = .error .unpopulated := by
  obtain ⟨_, hb, hr⟩ := h
  simp [compensate, hb, hr, hi]

/-- Settles O50: with every input populated the stored outcome is that of `comp` on them, and an input missing leaves `comp`
without its arguments. -/
theorem compensateEffect : Obligations.CompensateEffect := by
  refine ⟨fun s ac1 ac2 ac3 ac4 ac5 ac6 b1 b2 mb mc md ut up hm hcal hut hup => ?_, fun s f hm h => ?_⟩
  · intro i stores
    have hexec := exec_compensate_populated hm (compInput_of_populated hcal hut hup)
    generalize hc : comp i s.cfg.oss.toNat = outcome
    rw [hc] at hexec
    rcases outcome with (n | n) | ⟨t, p⟩ <;> exact hexec
  · exact exec_of_body_error hm.1 (except_bind_error_iff.2 (.inl (compensate_unpopulated hm (compInput_eq_none h))))

end Sys2Proof.Machine
end

/-! PROOFS. Eight clocked bits after a start condition reach the sensor as one address byte (R126, R142, R286). -/
section
namespace Sys2Proof.Machine

/-- The sensor with `n` bits of an address byte received, `r` in its shift register, the clock low and the line released. -/
structure SensorBus.Addressed (b : SensorBus) (n : Nat) (r : Byte) : Prop where
  scl   : b.scl = false
  mode  : b.mode = .address
  pulse : b.pulse = n
  shift : b.shift = r
  drive : b.drive = true

/-! ### One step of the sensor -/

/-- While the clock is low, the data line is neither a start nor a stop condition. -/
theorem SensorBus.dataChange_of_scl_low {b : SensorBus} (h : b.scl = false) (v : Bit) :
    b.dataChange v = { b with sda := v } := by
  simp [SensorBus.dataChange, h]

/-- A falling data line while the clock is high is a start condition. -/
theorem SensorBus.dataChange_of_start {b : SensorBus} (hscl : b.scl = true) (hsda : b.sda = true) :
    b.dataChange false = { b with sda := false, mode := .address, pulse := 0, shift := 0, drive := true } := by
  simp [SensorBus.dataChange, hscl, hsda]

@[simp] theorem SensorBus.dataChange_sda (b : SensorBus) (v : Bit) : (b.dataChange v).sda = v := by
  unfold SensorBus.dataChange
  split
  · rfl
  · split <;> rfl

theorem SensorBus.clockRise_lines (b : SensorBus) : b.clockRise.scl = true ∧ b.clockRise.sda = b.sda := by
  unfold SensorBus.clockRise
  cases b.mode with
  | silent => exact ⟨rfl, rfl⟩
  | address | receive | transmit => dsimp only; split <;> exact ⟨rfl, rfl⟩

/-- Once the clock has risen it is high, and the data line stands. -/
theorem Sensor.observe_scl_true (sn : Sensor) (b : SensorBus) :
    (sn.observe b (.scl true)).scl = true ∧ (sn.observe b (.scl true)).sda = b.sda := by
  cases h : b.scl <;> simp [Sensor.observe, h, SensorBus.clockRise_lines]

/-- The clock rises on one of the eight bits of an address byte. -/
theorem SensorBus.clockRise_of_address {b : SensorBus} (hm : b.mode = .address) (hp : b.pulse < 8) :
    b.clockRise = { b with scl := true, pulse := b.pulse + 1, shift := shiftIn b.shift b.sda } := by
  have hbit : BitVec.ofNat 8 b.sda.toNat = BitVec.setWidth 8 (BitVec.ofBool b.sda) := by cases b.sda <;> rfl
  have hle : b.pulse + 1 ≤ 8 := hp
  simp [SensorBus.clockRise, shiftIn, hm, hle, hbit]

/-- The clock falls on one of the eight bits of an address byte. -/
theorem Sensor.clockFall_of_address (sn : Sensor) {b : SensorBus} (hm : b.mode = .address) (hp : b.pulse ≤ 8) :
    sn.clockFall b = if b.pulse = 8 then sn.gotByte { b with scl := false } else { b with scl := false } := by
  have h9 : b.pulse ≠ 9 := by omega
  simp [Sensor.clockFall, hm, h9]

/-- Of a whole address byte the sensor acknowledges its own address alone. -/
theorem Sensor.gotByte_drive_of_address (sn : Sensor) {b : SensorBus} (hm : b.mode = .address) (hd : b.drive = true) :
    (sn.gotByte b).drive = false ↔ b.shift.extractLsb' 1 7 = sn.addr7 := by
  by_cases h : b.shift.extractLsb' 1 7 = sn.addr7 <;> simp [Sensor.gotByte, hm, hd, h]

theorem Sensor.gotByte_scl_of_address (sn : Sensor) {b : SensorBus} (hm : b.mode = .address) :
    (sn.gotByte b).scl = b.scl := by
  by_cases h : b.shift.extractLsb' 1 7 = sn.addr7 <;> simp [Sensor.gotByte, hm, h]

/-! ### The waves of the master -/

/-- A start condition makes the sensor wait for an address byte, whatever it was doing. -/
theorem Sensor.observe_startWave (sn : Sensor) (b : SensorBus) : (startWave.foldl sn.observe b).Addressed 0 0 := by
  let c := sn.observe (b.dataChange true) (.scl true)
  obtain ⟨hscl, hsda⟩ : c.scl = true ∧ c.sda = true := by
    simpa only [SensorBus.dataChange_sda] using sn.observe_scl_true (b.dataChange true)
  have hwave : startWave.foldl sn.observe b = sn.observe (c.dataChange false) (.scl false) := rfl
  rw [hwave, SensorBus.dataChange_of_start hscl hsda]
  constructor <;> simp [Sensor.observe, Sensor.clockFall_of_address, hscl]

/-- One bit on the wire goes into the shift register, and the eighth makes the byte whole. -/
theorem Sensor.observe_writeBitWave (sn : Sensor) {b : SensorBus} {n : Nat} {r : Byte} (hb : b.Addressed n r)
    (hn : n < 8) (v : Bit) :
    ∃ c : SensorBus, c.Addressed (n + 1) (shiftIn r v)
      ∧ (writeBitWave v).foldl sn.observe b = if n + 1 = 8 then sn.gotByte c else c := by
  obtain ⟨hscl, hmode, rfl, rfl, hdrive⟩ := hb
  refine ⟨{ b with sda := v, pulse := b.pulse + 1, shift := shiftIn b.shift v }, ⟨hscl, hmode, rfl, rfl, hdrive⟩, ?_⟩
  simp [writeBitWave, clockHigh, Sensor.observe, SensorBus.dataChange_of_scl_low, SensorBus.clockRise_of_address,
    Sensor.clockFall_of_address, hscl, hmode, hn, Nat.succ_le_of_lt hn]

/-- The bits that complete an address byte have the sensor answer the byte they were shifted into. -/
theorem Sensor.observe_lastBits (sn : Sensor) (bits : List Bit) :
    ∀ {b : SensorBus} {n : Nat} {r : Byte}, b.Addressed n r → n < 8 → n + bits.length = 8 →
      ∃ c : SensorBus, c.Addressed 8 (bits.foldl shiftIn r)
        ∧ (bits.flatMap writeBitWave).foldl sn.observe b = sn.gotByte c := by
  induction bits with
  | nil =>
    intro b n r _ hn hlen
    exact absurd hlen hn.ne
  | cons v bits ih =>
    intro b n r hb hn hlen
    rw [List.length_cons] at hlen
    obtain ⟨c, hc, hfold⟩ := sn.observe_writeBitWave hb hn v
    rw [List.flatMap_cons, List.foldl_append, hfold, List.foldl_cons]
    by_cases h8 : n + 1 = 8
    · obtain rfl : bits = [] := List.eq_nil_of_length_eq_zero (by omega)
      exact ⟨c, h8 ▸ hc, if_pos h8⟩
    · rw [if_neg h8]
      exact ih hc (by omega) (by omega)

theorem Sensor.observe_addressByte (sn : Sensor) {b : SensorBus} (hb : b.Addressed 0 0) (byte : Byte) :
    ∃ c : SensorBus, c.Addressed 8 byte ∧ (byteWave byte).foldl sn.observe b = sn.gotByte c := by
  have h := sn.observe_lastBits (wireBits byte) hb (by decide) rfl
  rwa [foldl_shiftIn_wireBits] at h

/-- Settles O60: the start condition makes what came before irrelevant, the byte arrives whole, and the master's release of the
line, the clock low, leaves what the sensor drives. -/
theorem sensorAcknowledgesItsAddress : Obligations.SensorAcknowledgesItsAddress := by
  intro sn trace byte
  obtain ⟨c, hc, hbyte⟩ := sn.observe_addressByte (sn.observe_startWave (sn.after trace)) byte
  have hlow : (sn.gotByte c).scl = false := (sn.gotByte_scl_of_address hc.mode).trans hc.scl
  have hafter : sn.after (trace ++ startWave ++ byteWave byte ++ [.sda true]) = { sn.gotByte c with sda := true } := by
    rw [← SensorBus.dataChange_of_scl_low hlow, ← hbyte]
    simp only [Sensor.after, List.foldl_append]
    rfl
  rw [Sensor.drives, hafter, ← hc.shift]
  exact sn.gotByte_drive_of_address hc.mode hc.drive

end Sys2Proof.Machine
end

/-! PROOFS. The values the reset state gives its fields (R300). -/
section
namespace Sys2Proof.Machine

@[simp] theorem Calibration.get_empty (f : CalField) : Calibration.empty.get f = none := by
  cases f <;> rfl

/-- Settles O18: every field is as `State.resetWith` builds it, and the empty CalibrationSet has no field populated. -/
theorem resetState : Obligations.ResetState := by
  rintro c _ rfl
  exact ⟨rfl, rfl, rfl,
    rfl, rfl, rfl, rfl, rfl, rfl,
    rfl, rfl, rfl, rfl, rfl,
    rfl, rfl, rfl, rfl, rfl, rfl,
    Calibration.get_empty, rfl, rfl,
    rfl, rfl, rfl, rfl, rfl,
    rfl, rfl, rfl⟩

end Sys2Proof.Machine
end

/-! PROOFS. The HALF events an operation emits (R313). -/
section
namespace Sys2Proof.Machine

/-- `t` has `n` HALF events more in its trace than `s`. -/
def AddsHalves (s : State) (n : Nat) (t : State) : Prop :=
  (eventCounts t.trace).half = (eventCounts s.trace).half + n

theorem addsHalves_of_append {s t : State} {n : Nat} {es : List BusEvent} (ht : t.trace = s.trace ++ es)
    (hn : (eventCounts es).half = n) : AddsHalves s n t := by
  rw [AddsHalves, ht, eventCounts_append, ← hn]
  rfl

theorem addsHalves_zero {s t : State} (ht : t.trace = s.trace) : AddsHalves s 0 t :=
  addsHalves_of_append (es := []) (by rw [ht, List.append_nil]) rfl

/-- What leaves the trace as it is emits no HALF. -/
theorem AddsHalves.of_trace_eq {s t u : State} {n : Nat} (h : AddsHalves s n t) (hu : u.trace = t.trace) :
    AddsHalves s n u := by
  rw [AddsHalves, hu]
  exact h

/-! ### The engine's procedures -/

theorem startCondition_addsHalves {s t : State} (h : startCondition s = .ok t) : AddsHalves s 2 t := by
  obtain ⟨_, rfl⟩ := (startCondition_ok_iff _ _).1 h
  exact addsHalves_of_append rfl rfl

theorem stopCondition_addsHalves {s t : State} (h : stopCondition s = .ok t) : AddsHalves s 2 t := by
  obtain ⟨_, rfl⟩ := (stopCondition_ok_iff _ _).1 h
  exact addsHalves_of_append rfl rfl

theorem writeBit_addsHalves (s : State) : AddsHalves s 2 (writeBit s) := by
  rw [writeBit_eq]
  exact addsHalves_of_append rfl rfl

theorem ackCheck_addsHalves (s : State) : AddsHalves s 2 (ackCheck s).1 := by
  rw [ackCheck_eq]
  exact addsHalves_of_append rfl rfl

theorem readPrime_addsHalves (s : State) : AddsHalves s 0 (readPrime s) := by
  rw [readPrime_eq]
  exact addsHalves_of_append rfl rfl

theorem readBit_addsHalves (s : State) : AddsHalves s 2 (readBit s) := by
  rw [readBit_eq]
  exact addsHalves_of_append rfl rfl

theorem readSendAck_addsHalves (s : State) : AddsHalves s 2 (readSendAck s) := by
  rw [readSendAck_eq]
  exact addsHalves_of_append rfl rfl

theorem readSendNack_addsHalves (s : State) : AddsHalves s 2 (readSendNack s) := by
  rw [readSendNack_eq]
  exact addsHalves_of_append rfl rfl

theorem wstep_addsHalves {s t : State} {r : WReturn} (h : wstep s = .ok (t, r)) : AddsHalves s 2 t := by
  rcases wstep_cases h with ⟨_, _, rfl, _⟩ | ⟨_, ha⟩
  · exact writeBit_addsHalves s
  · rw [show t = (ackCheck s).1 from congrArg Prod.fst ha]
    exact ackCheck_addsHalves s

theorem rstep_addsHalves {s t : State} {r : RReturn} (h : rstep s = .ok (t, r)) :
    AddsHalves s (if s.r.state = .priming then 0 else 2) t := by
  rcases rstep_cases h with ⟨hs, rfl, _⟩ | ⟨hs, rfl, _⟩ | ⟨hs, rfl, _⟩ | ⟨hs, rfl, _⟩ <;> rw [hs]
  · exact readPrime_addsHalves s
  · exact readBit_addsHalves s
  · exact readSendAck_addsHalves s
  · exact readSendNack_addsHalves s

/-! ### The Sequencer's phases -/

theorem writePhase_addsHalves {byte : Byte} {succ : Phase} {s t : State} (h : writePhase byte succ s = .ok t) :
    AddsHalves s 2 t := by
  rcases writePhase_cases h with ⟨_, rfl⟩ | ⟨_, _, rfl⟩ | ⟨_, _, rfl⟩ | ⟨_, _, rfl⟩
  · exact writeBit_addsHalves { s with w := _ }
  · exact writeBit_addsHalves s
  · exact ackCheck_addsHalves s
  · exact (ackCheck_addsHalves s).of_trace_eq rfl

theorem storeByte_trace {s t : State} (h : storeByte s = .ok t) : t.trace = s.trace := by
  obtain ⟨_, _, rfl⟩ := storeByte_cases h
  rfl

/-- A SEQSTEP of the phase READ that primes takes no bit (R192). -/
theorem phaseRead_addsHalves {row : StepRow} {s t : State} (h : phaseRead row s = .ok t) :
    AddsHalves s (if s.r.state = .idle ∨ s.r.state = .priming then 0 else 2) t := by
  rcases phaseRead_cases h with ⟨⟨_, hs⟩, rfl⟩ | ⟨hs, rfl⟩ | ⟨hs, rfl⟩ | ⟨hs, hb⟩ | ⟨hs, hb⟩ <;> rw [hs]
  · exact readPrime_addsHalves { s with r := _ }
  · exact readPrime_addsHalves s
  · exact readBit_addsHalves s
  · exact (readSendAck_addsHalves s).of_trace_eq (storeByte_trace hb)
  · exact (readSendNack_addsHalves s).of_trace_eq (storeByte_trace hb)

theorem phaseStop_addsHalves {row : StepRow} {s t : State} (h : phaseStop row s = .ok t) : AddsHalves s 2 t := by
  obtain ⟨_, u, nxt, hu, _, rfl⟩ := phaseStop_cases h
  have htrace : u.trace = s.trace ++ stopWave := commit_trace hu
  exact addsHalves_of_append htrace rfl

/-! ### SEQSTEP -/

theorem not_waitStep_of_row {c : Cfg} {st : Step} {row : StepRow} (h : stepRow c st = some row)
    (hwait : row.isWait = false) : ¬ (st = .waitT1 ∨ st = .waitT2) :=
  fun hst => not_afterStop_of_row h hwait (hst.imp_right .inl)

theorem waitStep_addsHalves {c : Cfg} {sleep : BusEvent} {s t : State}
    (hrow : stepRow c s.step = some (.wait sleep)) (h : waitStep sleep s = .ok t) : AddsHalves s 0 t := by
  obtain ⟨nxt, _, rfl⟩ := waitStep_cases h
  rcases wait_row_cases hrow with ⟨_, rfl⟩ | ⟨_, rfl⟩ <;> exact addsHalves_of_append rfl rfl

/-- Every phase of a step that is no wait clocks one bit or makes one bus condition, but for the priming of a read. -/
theorem seqstep_addsHalves {s t : State} {r : SeqReturn} (h : seqstep s = .ok (t, r)) :
    AddsHalves s (if s.step = .waitT1 ∨ s.step = .waitT2 then 0
      else if s.phase = .read ∧ (s.r.state = .idle ∨ s.r.state = .priming) then 0
      else 2) t := by
  obtain ⟨_, row, hrow, _, hd, _⟩ := (seqstep_ok_iff _ _ _).1 h
  rcases seqDispatch_cases hd with ⟨sleep, rfl, hw⟩ | ⟨hwait, hphase⟩
  · rw [if_pos ((wait_row_cases hrow).imp And.left And.left)]
    exact waitStep_addsHalves hrow hw
  rw [if_neg (not_waitStep_of_row hrow hwait)]
  rcases hphase with ⟨hp, h⟩ | ⟨hp, h⟩ | ⟨_, _, _, hp, _, h⟩ | ⟨_, _, hp, _, h⟩ | ⟨_, _, hp, _, h⟩ | ⟨hp, h⟩ | ⟨hp, h⟩ |
    ⟨hp, h⟩ | ⟨hp, h⟩ | ⟨hp, h⟩ <;> simp only [hp, reduceCtorEq, false_and, true_and, if_false]
  · obtain ⟨_, rfl⟩ := (phaseStart_ok_iff _ _).1 h
    exact addsHalves_of_append rfl rfl
  · exact writePhase_addsHalves h
  · exact writePhase_addsHalves h
  · exact writePhase_addsHalves h
  · exact writePhase_addsHalves h
  · obtain ⟨_, rfl⟩ := (phaseRestart_ok_iff _ _).1 h
    exact addsHalves_of_append rfl rfl
  · exact writePhase_addsHalves h
  · exact phaseRead_addsHalves h
  · exact phaseStop_addsHalves h
  · obtain ⟨_, rfl⟩ := (phaseStopFail_ok_iff _ _).1 h
    exact addsHalves_of_append rfl rfl

/-! ### The operations -/

/-- An instruction that raises no fault has run its body to the end. -/
theorem execBody_ok_of_no_fault {i : Instr} {s t : State} (hc : s.Clear) (h : exec i s = .next t)
    (hf : t.fault = none) : execBody i s = .ok t := by
  rw [exec_eq_invoke] at h
  rcases invoke_cases h with ⟨hnc, _⟩ | ⟨_, hb⟩ | ⟨_, f, _, rfl⟩
  · exact absurd hc hnc
  · exact hb
  · cases hf

/-- Settles O20: each operation's body runs one procedure, and storing the return value emits nothing. -/
theorem halfEventsPerOperation : Obligations.HalfEventsPerOperation := by
  intro i s t hop hacq hc h hf
  have hbody := execBody_ok_of_no_fault hc h hf
  change AddsHalves s _ t
  cases i <;> simp only [reduceCtorEq, if_false, if_true, or_false, or_true]
  case beginBus =>
    obtain ⟨u, hu, rfl⟩ := bind_returning_ok_iff.1 hbody
    obtain ⟨_, _, rfl⟩ := (beginLines_ok_iff _ _).1 hu
    exact addsHalves_of_append rfl rfl
  case start =>
    obtain ⟨_, _, u, hu, rfl⟩ := guard_bind_returning_ok_iff.1 hbody
    exact (startCondition_addsHalves hu).of_trace_eq rfl
  case stop =>
    obtain ⟨_, _, u, hu, rfl⟩ := guard_bind_returning_ok_iff.1 hbody
    exact (stopCondition_addsHalves hu).of_trace_eq rfl
  case wload =>
    obtain ⟨_, _, u, hu, rfl⟩ := guard_bind_returning_ok_iff.1 hbody
    obtain ⟨_, rfl⟩ := (wload_ok_iff _ _ _ _ _).1 hu
    exact addsHalves_zero rfl
  case wstep =>
    obtain ⟨_, _, ⟨u, r⟩, hu, rfl⟩ := guard_bind_returning_ok_iff.1 hbody
    exact (wstep_addsHalves hu).of_trace_eq rfl
  case rload =>
    obtain ⟨_, _, u, hu, rfl⟩ := guard_bind_returning_ok_iff.1 hbody
    obtain ⟨_, rfl⟩ := (rload_ok_iff _ _ _ _).1 hu
    exact addsHalves_zero rfl
  case rstep =>
    obtain ⟨_, _, ⟨u, r⟩, hu, rfl⟩ := guard_bind_returning_ok_iff.1 hbody
    exact (rstep_addsHalves hu).of_trace_eq rfl
  case astart =>
    obtain ⟨u, hu, rfl⟩ := bind_returning_ok_iff.1 hbody
    obtain ⟨_, _, _, _, rfl⟩ := (astart_ok_iff _ _).1 hu
    exact addsHalves_zero rfl
  case seqstep =>
    obtain ⟨⟨u, r⟩, hu, rfl⟩ := bind_returning_ok_iff.1 hbody
    exact (seqstep_addsHalves hu).of_trace_eq rfl
  case compensate =>
    obtain ⟨u, hu, rfl⟩ := bind_returning_ok_iff.1 hbody
    obtain ⟨_, _, _, _, rfl⟩ := (compensate_ok_iff _ _).1 hu
    exact addsHalves_zero rfl
  case acquire => exact absurd rfl hacq
  all_goals cases hop

end Sys2Proof.Machine
end
